-- ==== Sys2Proof/Word.lean ====
section
/-! DEFINITION. The words of the PS/2 link core: data bytes, raw frames, command and result words, and the
two-valued names the spec gives to line levels, line drives and clock edges. -/

namespace Sys2Proof

/-- A data byte (00_scope.md R7: a data value has 8 bits). -/
abbrev Byte := BitVec 8

/-- Format RAW, the 11-bit RawFrame (30_encoding.md R90); bit 0 is the first bit in time (00_scope.md R8). -/
abbrev RawFrame := BitVec 11

/-- Format CMD, the 12-bit command word of the foreground port (30_encoding.md R98). -/
abbrev CmdWord := BitVec 12

/-- The 9-bit result word of the foreground port: bit 8 `ok`, bits 7:0 `val` (30_encoding.md R98). -/
abbrev ResultWord := BitVec 9

/-- The resolved level of a line (10_state.md R33). -/
inductive Level where
  | low
  | high
  deriving DecidableEq, Repr

/-- One party's drive of an open-drain line: it pulls the line low or lets it go (10_state.md R31, R32). -/
inductive Drive where
  | low
  | released
  deriving DecidableEq, Repr

/-- A kind of clock edge (parameter `SAMPLE_EDGE`, 00_scope.md R6). -/
inductive Edge where
  | falling
  | rising
  deriving DecidableEq, Repr

/-- The two signal lines (00_scope.md R7). -/
inductive Line where
  | clock
  | data
  deriving DecidableEq, Repr

/-- The other level: `NREQ` beside `REQ` (43_link_transmit.md, before R200). -/
def Level.opposite : Level → Level
  | .low => .high
  | .high => .low

end Sys2Proof
end

