-- ==== Sys2Proof/Config.lean ====
section
/-! DEFINITION. The implementation parameters of the block (00_scope.md R6). They are fixed for the life of a
machine (10_state.md R39); `Machine.State` carries one `Config` that no step changes, so that a statement about
every state is a statement about every value of the parameters (log entry 1). -/

namespace Sys2Proof

/-- The parameter table of 00_scope.md R6, one field a row (`IDX_W` is derived: `Config.idxW`). -/
structure Config where
  /-- `FIFO_N`: number of slots of the Receive Buffer. -/
  fifoN : Nat
  /-- `PARITY_ODD`: false, the parity bit is the even parity of the data byte; true, its complement. -/
  parityOdd : Bool
  /-- `ACK_CODE`: the device's acknowledgment code. -/
  ackCode : Byte
  /-- `REQ_LEVEL`: the clock level the source calls the "request" level. -/
  reqLevel : Level
  /-- `SAMPLE_EDGE`: the clock edge at which the capture unit samples the data line. -/
  sampleEdge : Edge
  /-- `T_CLKWAIT`: timeout of one clock wait, in ticks. -/
  tClkWait : Nat
  /-- `T_IDLE`: timeout of the final wait for both lines high, in ticks. -/
  tIdle : Nat
  /-- `T_ACK`: timeout of the wait for the acknowledgment byte, in ticks. -/
  tAck : Nat
  /-- `T_INHIBIT`: length of the hold of transmit step 1; no rule depends on its value (43_link_transmit.md R202). -/
  tInhibit : Nat
  /-- `TICK_W`: width in bits of the tick counter. -/
  tickW : Nat
  /-- `TX_EXTRA_WAITS`: the two extra clock waits (43_link_transmit.md R207). -/
  txExtraWaits : Bool
  deriving DecidableEq, Repr

/-- `IDX_W = ceil(log2(FIFO_N))` (00_scope.md R6, 10_state.md R24). -/
def Config.idxW (c : Config) : Nat := if c.fifoN ≤ 1 then 0 else Nat.log2 (c.fifoN - 1) + 1

/-- `TX_LAST`: the last step index of `send_byte` (10_state.md R30). -/
def Config.txLast (c : Config) : Nat := if c.txExtraWaits then 37 else 35

/-- `NREQ`, the level opposite to `REQ_LEVEL` (43_link_transmit.md, before R200). -/
def Config.nreqLevel (c : Config) : Level := c.reqLevel.opposite

/-- `2 ^ TICK_W`, the modulus of the tick counter (10_state.md R34). -/
def Config.tickMod (c : Config) : Nat := 2 ^ c.tickW

/-- The parameter values of 95_test_vectors.md (those the spec fixes, and its example values of the OPEN ones);
`State.reset` uses them (log entry 1). -/
def Config.vectors : Config where
  fifoN := 6
  parityOdd := false
  ackCode := 0xFA#8
  reqLevel := .low
  sampleEdge := .falling
  tClkWait := 25
  tIdle := 25
  tAck := 25
  tInhibit := 1
  tickW := 32
  txExtraWaits := false

end Sys2Proof
end

