-- ==== Sys2Proof/Syntax.lean ====
section
/-! DEFINITION. The sixteen operations of the block, one constructor per row of spec/opcode_table.json
(30_encoding.md R100), with the operands the rows give them. -/

namespace Sys2Proof

/-- The operations of 30_encoding.md R100. A blocking operation (`send_byte`, `wait_clk`, `wait_idle`, `get_ack`) is
a finite sequence of foreground steps (00_scope.md R10); `Machine.exec` takes the next of them. -/
inductive Instr where
  /-- `validate(raw)`, 40_frame_codec.md R121. -/
  | validate (raw : RawFrame)
  /-- `encode(b)`, 40_frame_codec.md R123. -/
  | encode (b : Byte)
  /-- `push(b)`, 41_receive_buffer.md R141. -/
  | push (b : Byte)
  /-- `read_byte()`, 41_receive_buffer.md R143. -/
  | readByte
  /-- `bytes_available(n)`, 41_receive_buffer.md R144. -/
  | bytesAvailable (n : Byte)
  /-- `reset_buffer()`, 41_receive_buffer.md R146. -/
  | resetBuffer
  /-- `arm_receive()`, 42_link_receive.md R171. -/
  | armReceive
  /-- `capture_bit` with the level of `DATA` at the sampling instant, 42_link_receive.md R172. -/
  | captureBit (sample : Level)
  /-- `on_capture_complete(raw)`, 42_link_receive.md R174. -/
  | onCaptureComplete (raw : RawFrame)
  /-- `on_capture_error()`, 42_link_receive.md R175. -/
  | onCaptureError
  /-- `teardown_capture()`, 42_link_receive.md R177. -/
  | teardownCapture
  /-- `restart_capture()`, 42_link_receive.md R178. -/
  | restartCapture
  /-- `send_byte(b)`, 43_link_transmit.md R200. -/
  | sendByte (b : Byte)
  /-- `wait_clk(level)`, 43_link_transmit.md R203. -/
  | waitClk (level : Level)
  /-- `wait_idle()`, 43_link_transmit.md R206. -/
  | waitIdle
  /-- `get_ack()`, 43_link_transmit.md R210. -/
  | getAck
  deriving DecidableEq, Repr

/-- Where an operation may run: the two execution contexts (60_exceptions.md R286), the capture unit, which is the
completion context's agent (10_state.md R40), and `pure` for the Frame Codec (40_frame_codec.md R120). -/
inductive Context where
  | foreground
  | completion
  | captureUnit
  | pure
  deriving DecidableEq, Repr

end Sys2Proof
end

