-- ==== Sys2Proof/WellFormed.lean ====
section
/-! DEFINITION. Well-formedness: which configurations the spec allows (00_scope.md R6), which operations a command
word can select (30_encoding.md R100), and which operation may run in which context (41_receive_buffer.md R150,
60_exceptions.md R286). The operand widths are in the types, so no operand can be ill-formed. -/

namespace Sys2Proof

/-- The ranges of 00_scope.md R6, with "every `T` must be below `2^TICK_W`" (43_link_transmit.md R214).
A configuration outside them is refused (93_implementation_defined.md U16). -/
def Config.wf (c : Config) : Bool :=
  decide (2 ≤ c.fifoN) && decide (1 ≤ c.tClkWait) && decide (1 ≤ c.tIdle) && decide (1 ≤ c.tAck) &&
    decide (1 ≤ c.tInhibit) && decide (8 ≤ c.tickW) && decide (c.tClkWait < c.tickMod) &&
    decide (c.tIdle < c.tickMod) && decide (c.tAck < c.tickMod)

/-- The five operations that a command word selects (30_encoding.md R100, "Selected by"). -/
def Instr.isCommand : Instr → Bool
  | .validate _ => false
  | .encode _ => false
  | .push _ => false
  | .readByte => true
  | .bytesAvailable _ => true
  | .resetBuffer => false
  | .armReceive => true
  | .captureBit _ => false
  | .onCaptureComplete _ => false
  | .onCaptureError => false
  | .teardownCapture => false
  | .restartCapture => false
  | .sendByte _ => true
  | .waitClk _ => false
  | .waitIdle => false
  | .getAck => true

/-- The "may run" column of 60_exceptions.md R286, with the "context" column of 30_encoding.md R100: the codec is
pure and may be used anywhere, `arm_receive` runs in either context, `capture_bit` belongs to the capture unit and
its completion to the same step. -/
def Instr.mayRunIn : Instr → Context → Bool
  | .validate _, _ => true
  | .encode _, _ => true
  | .push _, c => c == .completion
  | .readByte, c => c == .foreground
  | .bytesAvailable _, c => c == .foreground
  | .resetBuffer, c => c == .foreground
  | .armReceive, c => c == .foreground || c == .completion
  | .captureBit _, c => c == .captureUnit
  | .onCaptureComplete _, c => c == .completion
  | .onCaptureError, c => c == .completion
  | .teardownCapture, c => c == .foreground
  | .restartCapture, c => c == .foreground
  | .sendByte _, c => c == .foreground
  | .waitClk _, c => c == .foreground
  | .waitIdle, c => c == .foreground
  | .getAck, c => c == .foreground

end Sys2Proof
end

