-- ==== Sys2Proof/Decode.lean ====
section
/-! DEFINITION. Decoding the foreground command word (format CMD, 30_encoding.md R98 to R102), total on all 4096
words and rejecting by name, and after it the encoder, written from the same table (30_encoding.md R100). -/

namespace Sys2Proof

/-- Why a command word is refused (30_encoding.md R102). -/
inductive DecodeError where
  /-- `op` is 0x0 or 0x6 to 0xF. -/
  | unassignedOp (op : BitVec 4)
  /-- A non-zero `arg` with an operation that takes none. -/
  | operandNotAllowed (op : BitVec 4) (arg : Byte)
  deriving DecidableEq, Repr

/-- Field `op[3:0]`, bits 11:8 (30_encoding.md R98). -/
def cmdOp (w : CmdWord) : BitVec 4 := w.extractLsb' 8 4

/-- Field `arg[7:0]`, bits 7:0 (30_encoding.md R98, R99). -/
def cmdArg (w : CmdWord) : Byte := w.extractLsb' 0 8

/-- An operation that takes no operand: `arg` must be 0 (30_encoding.md R99). -/
def noOperand (op : BitVec 4) (arg : Byte) (i : Instr) : Except DecodeError Instr :=
  if arg = 0#8 then .ok i else .error (.operandNotAllowed op arg)

/-- The decoder: the `op` numbers of 30_encoding.md R100, everything else refused by R102. -/
def decodeCmd (w : CmdWord) : Except DecodeError Instr :=
  if cmdOp w = 1#4 then noOperand 1#4 (cmdArg w) .armReceive
  else if cmdOp w = 2#4 then .ok (.bytesAvailable (cmdArg w))
  else if cmdOp w = 3#4 then noOperand 3#4 (cmdArg w) .readByte
  else if cmdOp w = 4#4 then .ok (.sendByte (cmdArg w))
  else if cmdOp w = 5#4 then noOperand 5#4 (cmdArg w) .getAck
  else .error (.unassignedOp (cmdOp w))

/-- A CMD word from its two fields (30_encoding.md R98). -/
def cmdWord (op : BitVec 4) (arg : Byte) : CmdWord := (op.setWidth 12 <<< 8) ||| arg.setWidth 12

/-- The encoder: the command word of an operation, for the five operations that have one (30_encoding.md R100).
The other eleven are selected by an event or by a call from another rule and have no word. -/
def encode : Instr → Option CmdWord
  | .validate _ => none
  | .encode _ => none
  | .push _ => none
  | .readByte => some (cmdWord 3#4 0#8)
  | .bytesAvailable n => some (cmdWord 2#4 n)
  | .resetBuffer => none
  | .armReceive => some (cmdWord 1#4 0#8)
  | .captureBit _ => none
  | .onCaptureComplete _ => none
  | .onCaptureError => none
  | .teardownCapture => none
  | .restartCapture => none
  | .sendByte b => some (cmdWord 4#4 b)
  | .waitClk _ => none
  | .waitIdle => none
  | .getAck => some (cmdWord 5#4 0#8)

/-- The host's question: what the decoder reads from the table's bits `w`. The foreground port takes CMD words
only, 12 bits; a RawFrame is no command (log entry 12). -/
def decodeTableWord (_nbits w : Nat) : Option Instr :=
  if w < 4096 then (decodeCmd (BitVec.ofNat 12 w)).toOption else none

end Sys2Proof
end

