-- ==== Sys2Proof/Machine/State.lean ====
section
/-! DEFINITION. The state of the machine as plain data: every element of 10_state.md R36, the environment's inputs
(10_state.md R32, R34), the positions inside a blocking call that the spec's step sequences imply, and the inputs
still to come (which agent steps next, which command words the host issues). -/

namespace Sys2Proof.Machine

/-- Why the machine stops with a fault. No fault is reached from a state that meets `Inv` (Safety.lean). -/
inductive Fault where
  /-- A read of a slot that no `push` has written. Raised by `read_byte` and by step (g6) of `get_ack`
  (10_state.md R42, 93_implementation_defined.md U7: "fault on a read before a write"). Safe. -/
  | unwrittenSlot (index : Nat)
  /-- An access to an index outside `[0, FIFO_N)` (20_memory.md R60: no such address exists). Raised by `push`,
  `read_byte` and step (g6) of `get_ack`. Safe. -/
  | slotOutOfRange (index : Nat)
  /-- A transmit phase above `TX_LAST` (10_state.md R30 gives the range; the step table has no such row).
  Raised by `send_byte`. Safe. -/
  | txPhaseOutOfTable (phase : Nat)
  deriving DecidableEq, Repr

/-- Why the machine gives no meaning. -/
inductive Refusal where
  /-- An instruction that has no meaning yet; raised by `exec` only. Safe. -/
  | notModelled (mnemonic : String)
  /-- A blocking foreground operation called while another is in progress (93_implementation_defined.md U12:
  `refuse`). Raised by `send_byte` and `get_ack`; `step` never makes such a call. Safe. -/
  | foregroundBusy
  /-- A configuration outside the ranges of 00_scope.md R6 (93_implementation_defined.md U16: `refuse`).
  Raised by `step`. Safe. -/
  | unsupportedConfiguration
  deriving DecidableEq, Repr

/-- The slot array `buf` (10_state.md R21): the slots that have been written, by index, strictly rising. A slot that
is not listed has never been written and reads as no value (10_state.md R42; log entry 13). -/
abbrev Memory := List Host.Cell

/-- `tx_phase` (10_state.md R30): `IDLE` or a step index of the table of 43_link_transmit.md R201. -/
inductive TxPhase where
  | idle
  | at (i : Nat)
  deriving DecidableEq, Repr

/-- The position inside `get_ack` (43_link_transmit.md R210): `idle`, or the step to take next; (g1) is the step
that starts the call, and `g7 v` carries the byte that (g6) read. -/
inductive AckPhase where
  | idle
  | g2
  | g3
  | g4
  | g5
  | g6
  | g7 (v : Byte)
  deriving DecidableEq, Repr

/-- The outcome of one step of a bounded wait (43_link_transmit.md R203, R206): the level was seen, the time ran
out, or the wait goes on. -/
inductive WaitOutcome where
  | seen
  | timeout
  | again
  deriving DecidableEq, Repr

/-- What the last foreground or pure operation returned (30_encoding.md R100, "result"). -/
inductive Ret where
  /-- Nothing has been returned since reset, or the call in progress has not returned. -/
  | pending
  /-- A command word was refused (30_encoding.md R102). -/
  | refused
  /-- `arm_receive` and `send_byte`: returned without a value. -/
  | done
  /-- `read_byte`. -/
  | byte (r : Option Byte)
  /-- `bytes_available` and `get_ack`. -/
  | bool (b : Bool)
  /-- `validate`. -/
  | validated (r : Option Byte)
  /-- `encode`. -/
  | frame (f : RawFrame)
  /-- `wait_clk` and `wait_idle`; "not returned to the caller". -/
  | wait (o : WaitOutcome)
  deriving DecidableEq, Repr

/-- A step of one agent (10_state.md R40), as an entry of the schedule. -/
inductive Event where
  /-- The foreground (or the transmit sequencer, which is the same agent) takes its next step. -/
  | foreground
  /-- The device sets its drives of the two lines; a sampling edge this makes is sampled in the same step. -/
  | device (clk data : Drive)
  /-- The tick source advances the tick by `k`. -/
  | tick (k : Nat)
  /-- The capture unit reports an error, if it is armed and online. -/
  | captureError
  deriving DecidableEq, Repr

/-- The machine. -/
structure State where
  /-- The parameters (00_scope.md R6), fixed for the life of the machine. -/
  cfg : Config
  /-- `buf` (R21). -/
  buf : Memory
  /-- `wr`, the write index (R24). -/
  wr : Nat
  /-- `rd`, the read index (R24). -/
  rd : Nat
  /-- `armed` (R26). -/
  armed : Bool
  /-- `cap_online` (R27). -/
  capOnline : Bool
  /-- `cap_cnt` (R29); the value 11 exists only inside a completing step (R41 I-e). -/
  capCnt : Fin 11
  /-- `cap_sr` (R23). -/
  capSr : RawFrame
  /-- `tx_phase` (R30). -/
  txPhase : TxPhase
  /-- `tx_byte` (R28). -/
  txByte : Byte
  /-- `wait_t0` (R35), a tick value. -/
  waitT0 : Nat
  /-- `h_clk` (R31). -/
  hClk : Drive
  /-- `h_data` (R31). -/
  hData : Drive
  /-- `d_clk` (R32), an input. -/
  dClk : Drive
  /-- `d_data` (R32), an input. -/
  dData : Drive
  /-- `tick` (R34), an input. -/
  tick : Nat
  /-- A `wait_clk` or `wait_idle` has written `wait_t0` and is in its loop (43_link_transmit.md R203, R206). -/
  waiting : Bool
  /-- The position inside `get_ack` (43_link_transmit.md R210). -/
  ackPhase : AckPhase
  /-- What the last operation returned (30_encoding.md R98, R100). -/
  ret : Ret
  /-- The command words the host has still to issue, in order (44_host_protocol_boundary.md R249). -/
  program : List CmdWord
  /-- Which agent takes each of the coming steps (10_state.md R40, 60_exceptions.md R282 (e)). -/
  schedule : List Event
  deriving DecidableEq, Repr

/-- What a reset leaves open: the elements 10_state.md R42 calls unspecified, and the inputs from outside the block
(10_state.md R32, R34), with what the environment is going to do. -/
structure ResetOpen where
  capSr : RawFrame
  txByte : Byte
  waitT0 : Nat
  dClk : Drive
  dData : Drive
  tick : Nat
  program : List CmdWord
  schedule : List Event
  deriving DecidableEq, Repr

/-- The state after the reset event (10_state.md R42, 70_reset_and_hazards.md R310), for every configuration and
every value of what reset leaves open. -/
def State.resetWith (c : Config) (u : ResetOpen) : State where
  cfg := c
  buf := []
  wr := 0
  rd := 0
  armed := false
  capOnline := false
  capCnt := 0
  capSr := u.capSr
  txPhase := .idle
  txByte := u.txByte
  waitT0 := u.waitT0
  hClk := .released
  hData := .released
  dClk := u.dClk
  dData := u.dData
  tick := u.tick
  waiting := false
  ackPhase := .idle
  ret := .pending
  program := u.program
  schedule := u.schedule

/-- The values `State.reset` names for what reset leaves open (log entries 2 and 3). -/
def ResetOpen.named : ResetOpen where
  capSr := 0#11
  txByte := 0#8
  waitT0 := 0
  dClk := .released
  dData := .released
  tick := 0
  program := []
  schedule := []

/-- The machine right after reset: `State.resetWith` at the values log entries 1, 2 and 3 name. -/
def State.reset : State := State.resetWith Config.vectors ResetOpen.named

end Sys2Proof.Machine
end

