-- ==== Sys2Proof/Machine/Operands.lean ====
section
/-! DEFINITION. The operand forms: the fields of a RawFrame and its parity (30_encoding.md R90 to R97), the line
levels (10_state.md R33), and the modular arithmetic of indices and ticks (00_scope.md R9). -/

namespace Sys2Proof.Machine

/-- `(a - b) mod M` of 00_scope.md R9, for `b < M`; never negative. -/
def modSub (a b M : Nat) : Nat := (a + (M - b % M)) % M

/-- `xor8(d)` (00_scope.md R9). -/
def xor8 (d : Byte) : Bool :=
  d.getLsbD 0 ^^ d.getLsbD 1 ^^ d.getLsbD 2 ^^ d.getLsbD 3 ^^
    d.getLsbD 4 ^^ d.getLsbD 5 ^^ d.getLsbD 6 ^^ d.getLsbD 7

/-- `p(d) = xor8(d) ^ PARITY_ODD` (30_encoding.md R93). -/
def parityBit (c : Config) (d : Byte) : Bool := xor8 d ^^ c.parityOdd

/-- The `start` field, bit 0 (30_encoding.md R90). -/
def rawStart (raw : RawFrame) : Bool := raw.getLsbD 0

/-- The `data` field, bits 8:1 (30_encoding.md R92). -/
def rawData (raw : RawFrame) : Byte := raw.extractLsb' 1 8

/-- The `par` field, bit 9 (30_encoding.md R90). -/
def rawPar (raw : RawFrame) : Bool := raw.getLsbD 9

/-- The `stop` field, bit 10 (30_encoding.md R90). -/
def rawStop (raw : RawFrame) : Bool := raw.getLsbD 10

/-- `encode(b) = (1 << 10) | (p(b) << 9) | (b << 1) | 0` (30_encoding.md R97). -/
def encodeFrame (c : Config) (b : Byte) : RawFrame :=
  (1#11 <<< 10) ||| ((BitVec.ofBool (parityBit c b)).setWidth 11 <<< 9) ||| (b.setWidth 11 <<< 1)

/-- Write bit `i` of the shift register (42_link_receive.md R172, first line). -/
def writeBit (sr : RawFrame) (i : Nat) (x : Bool) : RawFrame :=
  (sr &&& ~~~(1#11 <<< i)) ||| ((BitVec.ofBool x).setWidth 11 <<< i)

/-- `HIGH` is 1 and `LOW` is 0 (30_encoding.md R94, R96). -/
def levelBit : Level → Bool
  | .high => true
  | .low => false

/-- The drive that puts a bit on a line: 1 is release, 0 is drive low (30_encoding.md R96). -/
def bitDrive (x : Bool) : Drive := if x then .released else .low

/-- Open-drain resolution: `LOW` iff the host or the device drives the line low (10_state.md R33). -/
def lineLevel (h d : Drive) : Level := if h = .low ∨ d = .low then .low else .high

/-- `CLK` (10_state.md R33). -/
def State.clk (s : State) : Level := lineLevel s.hClk s.dClk

/-- `DATA` (10_state.md R33). -/
def State.data (s : State) : Level := lineLevel s.hData s.dData

/-- `elapsed(t0)` of the wait in progress: `(now() - wait_t0) mod 2^TICK_W` (43_link_transmit.md R214). -/
def State.elapsed (s : State) : Nat := modSub s.tick s.waitT0 s.cfg.tickMod

/-- Is the change of the clock level from `a` to `b` a `SAMPLE_EDGE`? (42_link_receive.md R172) -/
def isSampleEdge (e : Edge) (a b : Level) : Bool :=
  match e with
  | .falling => a == .high && b == .low
  | .rising => a == .low && b == .high

/-- The successor of a slot index, modulo `FIFO_N` (41_receive_buffer.md R145). -/
def State.succIndex (s : State) (i : Nat) : Nat := (i + 1) % s.cfg.fifoN

/-- The result word of the foreground port, `ok` in bit 8 and `val` in bits 7:0 (30_encoding.md R98, R100); none
while a call is in progress and for an operation that is not selected by a command word. -/
def Ret.word : Ret → Option ResultWord
  | .pending => none
  | .refused => some 0#9
  | .done => some 0x100#9
  | .byte none => some 0#9
  | .byte (some v) => some (1#1 ++ v)
  | .bool true => some 0x101#9
  | .bool false => some 0x100#9
  | .validated _ => none
  | .frame _ => none
  | .wait _ => none

end Sys2Proof.Machine
end

