-- ==== Sys2Proof/Machine/Flags.lean ====
section
/-! DEFINITION. The flags: the derived values of the indices (10_state.md R25), the enable of the capture unit's
events (60_exceptions.md R280), and the tests of the codec (40_frame_codec.md R121). -/

namespace Sys2Proof.Machine

/-- The error kinds of 60_exceptions.md R270. No state records one. -/
inductive ErrorKind where
  | framingError
  | parityError
  | captureError
  | overflow
  | clkTimeout
  | idleTimeout
  | ackTimeout
  | ackWrong
  | noData
  deriving DecidableEq, Repr

/-- `count = (wr - rd) mod FIFO_N` (10_state.md R25). -/
def State.count (s : State) : Nat := modSub s.wr s.rd s.cfg.fifoN

/-- `empty = (wr = rd)` (10_state.md R25). -/
def State.isEmpty (s : State) : Bool := decide (s.wr = s.rd)

/-- `full = ((wr + 1) mod FIFO_N = rd)` (10_state.md R25). -/
def State.isFull (s : State) : Bool := decide (s.succIndex s.wr = s.rd)

/-- The comparison of `bytes_available(n)`: `count >= n` (41_receive_buffer.md R144). -/
def State.hasBytes (s : State) (n : Nat) : Bool := decide (n ≤ s.count)

/-- The capture unit's events are enabled exactly while `armed = 1` and `cap_online = 1` (60_exceptions.md R280,
42_link_receive.md R176). -/
def State.captureEnabled (s : State) : Bool := s.armed && s.capOnline

/-- The two tests of `validate`, framing before parity (40_frame_codec.md R121): the error it raises, if any. -/
def frameError (c : Config) (raw : RawFrame) : Option ErrorKind :=
  if rawStart raw then some .framingError
  else if rawStop raw = false then some .framingError
  else if rawPar raw = parityBit c (rawData raw) then none
  else some .parityError

/-- `validate(raw) -> Option<byte>` as a pure function (40_frame_codec.md R121). -/
def validateFrame (c : Config) (raw : RawFrame) : Option Byte :=
  match frameError c raw with
  | some _ => none
  | none => some (rawData raw)

end Sys2Proof.Machine
end

