-- ==== Sys2Proof/Machine/Ops.lean ====
section
/-! DEFINITION. The named operations over memory, pins and the capture flags that the meanings share, among them
what the completion context does when it takes an event (`takeCompletion`, 60_exceptions.md R283) and how it returns
(`rearm`, 60_exceptions.md R284). -/

namespace Sys2Proof.Machine

/-- The three outcomes of an operation of this machine. -/
abbrev Result := Host.Outcome State Fault Refusal

/-- Go on with the next state, or stop where the first operation stopped. -/
def andThen (o : Result) (f : State → Result) : Result :=
  match o with
  | .next s => f s
  | .fault r => .fault r
  | .refused r => .refused r

/-- The next state of an outcome, if it has one. -/
def nextState (o : Result) : Option State :=
  match o with
  | .next s => some s
  | .fault _ => none
  | .refused _ => none

/-- The value of slot `i`, if it has ever been written. -/
def readSlot : Memory → Nat → Option Byte
  | [], _ => none
  | (a, v) :: m, i => if a = i then some v else readSlot m i

/-- Write slot `i`, keeping the list strictly rising. -/
def writeSlot : Memory → Nat → Byte → Memory
  | [], i, b => [(i, b)]
  | (a, v) :: m, i, b =>
    if i < a then (i, b) :: (a, v) :: m
    else if i = a then (i, b) :: m
    else (a, v) :: writeSlot m i b

/-- The canonical form of the slot array: addresses strictly rising (an unlisted slot reads as no value, so no entry
can equal what an unlisted slot reads as). -/
abbrev Memory.wf (m : Memory) : Prop := m.Pairwise fun c d => c.1 < d.1

/-- `MemRead(i, 1)` (20_memory.md R60): defined for `0 <= i < FIFO_N`, and a fault on a slot never written. -/
def memRead (s : State) (i : Nat) : Except Fault Byte :=
  if i < s.cfg.fifoN then
    match readSlot s.buf i with
    | some v => .ok v
    | none => .error (.unwrittenSlot i)
  else .error (.slotOutOfRange i)

/-- `MemWrite(i, 1, b)` (20_memory.md R60): defined for `0 <= i < FIFO_N`. -/
def memWrite (s : State) (i : Nat) (b : Byte) : Except Fault State :=
  if i < s.cfg.fifoN then .ok { s with buf := writeSlot s.buf i b }
  else .error (.slotOutOfRange i)

/-- An action of the host on a pin (60_exceptions.md R289 (b)). -/
inductive PinAction where
  | driveLow (l : Line)
  | release (l : Line)
  deriving DecidableEq, Repr

/-- `drive_low(p)` and `release(p)` (10_state.md R31). -/
def State.pin (s : State) : PinAction → State
  | .driveLow .clock => { s with hClk := .low }
  | .driveLow .data => { s with hData := .low }
  | .release .clock => { s with hClk := .released }
  | .release .data => { s with hData := .released }

/-- `set_data(x)`: release the data line for 1, drive it low for 0 (43_link_transmit.md R204). -/
def setDataAction (x : Bool) : PinAction := if x then .release .data else .driveLow .data

/-- The core of `push` (41_receive_buffer.md R141): nothing when full, else the slot and then the index. -/
def pushByte (s : State) (b : Byte) : Result :=
  if s.isFull then .next s
  else
    match memWrite s s.wr b with
    | .ok t => .next { t with wr := s.succIndex s.wr }
    | .error f => .fault f

/-- The core of `read_byte` (41_receive_buffer.md R143), as one step (20_memory.md R73): the byte and the state
after it, or no byte from an empty buffer. -/
def popByte (s : State) : Except Fault (Option Byte × State) :=
  if s.isEmpty then .ok (none, s)
  else
    match memRead s s.rd with
    | .ok v => .ok (some v, { s with rd := s.succIndex s.rd })
    | .error f => .error f

/-- The core of `reset_buffer` (41_receive_buffer.md R146): both indices to 0, slots untouched. -/
def State.emptyBuffer (s : State) : State := { s with wr := 0, rd := 0 }

/-- Bring an offline capture unit online, both pins released (42_link_receive.md R171, D13). -/
def State.bringOnline (s : State) : State :=
  if s.capOnline then s else { s with hClk := .released, hData := .released, capOnline := true }

/-- The core of `arm_receive` (42_link_receive.md R171): idempotent, and from not armed a fresh capture. -/
def State.arm (s : State) : State :=
  if s.armed then s else { s.bringOnline with capCnt := 0, armed := true }

/-- How a completion handler ends (60_exceptions.md R284, 42_link_receive.md R174, R175): the armed flag is cleared
and `arm_receive` called; the events are enabled again from that moment, and there is nothing to restore. -/
def State.rearm (s : State) : State := State.arm { s with armed := false }

/-- Taking an event of the capture unit (60_exceptions.md R283): the handler runs to its end as part of the same
step; entry saves nothing and switches nothing, the partial frame is over (`cap_cnt <- 0`), and the handler ends in
`rearm`. `body` is what the handler does before that. -/
def takeCompletion (body : State → Result) (s : State) : Result :=
  andThen (body { s with capCnt := 0 }) fun t => .next t.rearm

/-- One foreground step of a bounded wait (43_link_transmit.md R203, R206): the entry writes `wait_t0`; each pass
after it tests the condition first and the timeout second. -/
def waitStep (s : State) (hit : Bool) (limit : Nat) : WaitOutcome × State :=
  if s.waiting then
    if hit then (.seen, { s with waiting := false })
    else if limit ≤ s.elapsed then (.timeout, { s with waiting := false })
    else (.again, s)
  else (.again, { s with waitT0 := s.tick, waiting := true })

/-- One foreground step of `wait_clk(level)` (43_link_transmit.md R203). -/
def State.waitClkStep (s : State) (l : Level) : WaitOutcome × State :=
  waitStep s (decide (s.clk = l)) s.cfg.tClkWait

/-- One foreground step of `wait_idle()` (43_link_transmit.md R206). -/
def State.waitIdleStep (s : State) : WaitOutcome × State :=
  waitStep s (decide (s.clk = .high) && decide (s.data = .high)) s.cfg.tIdle

end Sys2Proof.Machine
end

