-- ==== Sys2Proof/Machine/FrameCodec.lean ====
section
/-! DEFINITION. The Frame Codec family (40_frame_codec.md): `validate` and `encode`, pure functions of their operand
and `PARITY_ODD`; as operations they leave their result in `ret` and touch nothing else. -/

namespace Sys2Proof.Machine

/-- `validate(raw)` (40_frame_codec.md R121). -/
def execValidate (raw : RawFrame) (s : State) : Result :=
  .next { s with ret := .validated (validateFrame s.cfg raw) }

/-- `encode(b)` (40_frame_codec.md R123). -/
def execEncode (b : Byte) (s : State) : Result :=
  .next { s with ret := .frame (encodeFrame s.cfg b) }

end Sys2Proof.Machine
end

