-- ==== Sys2Proof/Machine/LinkReceive.lean ====
section
/-! DEFINITION. The receive path family (42_link_receive.md): arming, bit capture, the two completion handlers,
teardown and restart. -/

namespace Sys2Proof.Machine

/-- `arm_receive()` as a command (42_link_receive.md R171). -/
def execArmReceive (s : State) : Result := .next { s.arm with ret := .done }

/-- `on_capture_complete(raw)` (42_link_receive.md R174): validate, push a valid byte, clear `armed`, re-arm. -/
def execOnCaptureComplete (raw : RawFrame) (s : State) : Result :=
  takeCompletion (fun t =>
    match validateFrame t.cfg raw with
    | some b => pushByte t b
    | none => .next t) s

/-- `on_capture_error()` (42_link_receive.md R175): the attempt is discarded and the unit re-armed. -/
def execOnCaptureError (s : State) : Result := takeCompletion (fun t => .next t) s

/-- The shift register after the next sample (42_link_receive.md R172). -/
def State.sampled (s : State) (x : Level) : RawFrame := writeBit s.capSr s.capCnt.val (levelBit x)

/-- `capture_bit` (42_link_receive.md R172); the 11th sample completes the frame in the same step (R173). -/
def execCaptureBit (x : Level) (s : State) : Result :=
  if h : s.capCnt.val + 1 < 11 then
    .next { s with capSr := s.sampled x, capCnt := ⟨s.capCnt.val + 1, h⟩ }
  else
    execOnCaptureComplete (s.sampled x) { s with capSr := s.sampled x, capCnt := 0 }

/-- The core of `teardown_capture` (42_link_receive.md R177). -/
def State.teardown (s : State) : State := { s with armed := false, capCnt := 0, capOnline := false }

/-- The core of `restart_capture` (42_link_receive.md R178). -/
def State.restart (s : State) : State :=
  { s with hClk := .released, hData := .released, armed := false, capCnt := 0, capOnline := true }

/-- `teardown_capture()` (42_link_receive.md R177). -/
def execTeardownCapture (s : State) : Result := .next s.teardown

/-- `restart_capture()` (42_link_receive.md R178). -/
def execRestartCapture (s : State) : Result := .next s.restart

end Sys2Proof.Machine
end

