-- ==== Sys2Proof/Machine/LinkTransmit.lean ====
section
/-! DEFINITION. The transmit path family (43_link_transmit.md): the step table of `send_byte`, the bounded waits and
`get_ack`. A blocking operation's meaning takes its next foreground step; the position stands in the state. -/

namespace Sys2Proof.Machine

/-- What a row of the step table does (43_link_transmit.md R201). -/
inductive TxAction where
  | teardown
  | pin (a : PinAction)
  | hold
  | waitClk (l : Level)
  | waitIdle
  deriving DecidableEq, Repr

/-- The step table of `send_byte(b)` (43_link_transmit.md R201): the action of phase `i`, none above `TX_LAST`. -/
def txAction (c : Config) (b : Byte) (i : Nat) : Option TxAction :=
  if i = 0 then some .teardown
  else if i = 1 then some (.pin (.driveLow .clock))
  else if i = 2 then some .hold
  else if i = 3 then some (.pin (.driveLow .data))
  else if i = 4 then some (.pin (.release .clock))
  else if i ≤ 28 then
    if (i - 5) % 3 = 0 then some (.waitClk c.reqLevel)
    else if (i - 5) % 3 = 1 then some (.pin (setDataAction (b.getLsbD ((i - 5) / 3))))
    else some (.waitClk c.nreqLevel)
  else if i = 29 then some (.waitClk c.reqLevel)
  else if i = 30 then some (.pin (setDataAction (parityBit c b)))
  else if i = 31 then some (.waitClk c.nreqLevel)
  else if i = 32 then some (.pin (.release .data))
  else if i = 33 then some (.waitClk c.reqLevel)
  else if i = 34 then some (.waitClk c.nreqLevel)
  else if c.txExtraWaits then
    if i = 35 then some (.waitClk c.reqLevel)
    else if i = 36 then some (.waitClk c.nreqLevel)
    else if i = 37 then some .waitIdle
    else none
  else if i = 35 then some .waitIdle
  else none

/-- "each step setting `tx_phase` to the next index when it finishes" (43_link_transmit.md R200). -/
def State.txNext (s : State) (i : Nat) : State := { s with txPhase := .at (i + 1) }

/-- The end of the call: `tx_phase <- IDLE` and `send_byte` returns (43_link_transmit.md R200, R201). -/
def State.txReturn (s : State) : State := { s with txPhase := .idle, ret := .done }

/-- A finished clock wait, seen or timed out alike, goes on to the next phase (43_link_transmit.md R203); a wait that
goes round keeps the phase. -/
def afterClkWait (i : Nat) (r : WaitOutcome × State) : State :=
  match r.1 with
  | .again => r.2
  | .seen => r.2.txNext i
  | .timeout => r.2.txNext i

/-- A finished idle wait, seen or timed out alike, ends the call (43_link_transmit.md R206). -/
def afterIdleWait (r : WaitOutcome × State) : State :=
  match r.1 with
  | .again => r.2
  | .seen => r.2.txReturn
  | .timeout => r.2.txReturn

/-- One foreground step of the call in progress, at phase `i` (43_link_transmit.md R201). -/
def txStep (i : Nat) (s : State) : Result :=
  match txAction s.cfg s.txByte i with
  | some .teardown => .next (s.teardown.txNext i)
  | some (.pin a) => .next ((s.pin a).txNext i)
  | some .hold => .next (s.txNext i)
  | some (.waitClk l) => .next (afterClkWait i (s.waitClkStep l))
  | some .waitIdle => .next (afterIdleWait s.waitIdleStep)
  | none => .fault (.txPhaseOutOfTable i)

/-- `send_byte(b)` (43_link_transmit.md R200): from `IDLE` it latches `b` and takes step 0, the teardown, in one step
(10_state.md R41 I-f, I-g; log entry 6); a call in progress takes its next step. -/
def execSendByte (b : Byte) (s : State) : Result :=
  match s.txPhase with
  | .idle =>
    if s.ackPhase = .idle then
      txStep 0 { s with txByte := b, txPhase := .at 0, waiting := false, ret := .pending }
    else .refused .foregroundBusy
  | .at i => if b = s.txByte then txStep i s else .refused .foregroundBusy

/-- One foreground step of `wait_clk(level)` (43_link_transmit.md R203). -/
def execWaitClk (l : Level) (s : State) : Result :=
  .next { (s.waitClkStep l).2 with ret := .wait (s.waitClkStep l).1 }

/-- One foreground step of `wait_idle()` (43_link_transmit.md R206). -/
def execWaitIdle (s : State) : Result :=
  .next { s.waitIdleStep.2 with ret := .wait s.waitIdleStep.1 }

/-- `get_ack` returns (43_link_transmit.md R210). -/
def State.ackReturn (s : State) (b : Bool) : State := { s with ackPhase := .idle, ret := .bool b }

/-- `get_ack()` (43_link_transmit.md R210): from idle it takes (g1); a call in progress takes its next step. -/
def execGetAck (s : State) : Result :=
  if s.txPhase = .idle then
    match s.ackPhase with
    | .idle => .next { s.emptyBuffer with ackPhase := .g2, ret := .pending }
    | .g2 => .next { s.restart with ackPhase := .g3 }
    | .g3 => .next { s.arm with ackPhase := .g4 }
    | .g4 => .next { s with waitT0 := s.tick, ackPhase := .g5 }
    | .g5 =>
      if s.hasBytes 1 then .next { s with ackPhase := .g6 }
      else if s.cfg.tAck ≤ s.elapsed then .next (s.ackReturn false)
      else .next s
    | .g6 =>
      match popByte s with
      | .ok (some v, t) => .next { t with ackPhase := .g7 v }
      | .ok (none, t) => .next (t.ackReturn false)
      | .error f => .fault f
    | .g7 v => .next (s.ackReturn (decide (v = s.cfg.ackCode)))
  else .refused .foregroundBusy

/-- The slot of the wire frame that stands on the data line while the call is at phase `i`: none before step 3 has
driven the start bit, slot 0 until step 6, slot `1 + k` from step `6 + 3k` on, slot 9 from step 30, slot 10 from
step 32 (43_link_transmit.md R205, 30_encoding.md R95). -/
def wireSlot (i : Nat) : Option Nat :=
  if i ≤ 3 then none
  else if i ≤ 32 then some ((i - 4) / 3)
  else some 10

/-- The host's drive of the data line that format WIRE-TX gives for byte `b` at a transmit phase (30_encoding.md
R95): the slot's bit of `encode(b)`; released outside the frame. -/
def wireDrive (c : Config) (b : Byte) : TxPhase → Drive
  | .idle => .released
  | .at i =>
    match wireSlot i with
    | none => .released
    | some k => bitDrive ((encodeFrame c b).getLsbD k)

/-- The host's drive of the clock line at a transmit phase: low after step 1 and until step 4 (43_link_transmit.md
R201). -/
def clockDrive : TxPhase → Drive
  | .idle => .released
  | .at i => if 2 ≤ i ∧ i ≤ 4 then .low else .released

end Sys2Proof.Machine
end

