-- ==== Sys2Proof/Machine/ReceiveBuffer.lean ====
section
/-! DEFINITION. The Receive Buffer family (41_receive_buffer.md): `push`, `read_byte`, `bytes_available`,
`reset_buffer`, each one atomic step (20_memory.md R73). -/

namespace Sys2Proof.Machine

/-- The content of the queue, oldest byte first: `buf[rd], buf[(rd+1) mod FIFO_N], …` of length `count`
(41_receive_buffer.md R140). -/
def State.queue (s : State) : List Byte :=
  (List.range s.count).filterMap fun k => readSlot s.buf ((s.rd + k) % s.cfg.fifoN)

/-- `push(b)` (41_receive_buffer.md R141, R142). -/
def execPush (b : Byte) (s : State) : Result := pushByte s b

/-- `read_byte()` (41_receive_buffer.md R143). -/
def execReadByte (s : State) : Result :=
  match popByte s with
  | .ok (r, t) => .next { t with ret := .byte r }
  | .error f => .fault f

/-- `bytes_available(n)` (41_receive_buffer.md R144). -/
def execBytesAvailable (n : Byte) (s : State) : Result :=
  .next { s with ret := .bool (s.hasBytes n.toNat) }

/-- `reset_buffer()` (41_receive_buffer.md R146). -/
def execResetBuffer (s : State) : Result := .next s.emptyBuffer

end Sys2Proof.Machine
end

