-- ==== Sys2Proof/Machine/Dispatch.lean ====
section
/-! DEFINITION. The dispatch: one arm per operation of spec/opcode_table.json. -/

namespace Sys2Proof.Machine

def exec (i : Instr) (s : State) : Host.Outcome State Fault Refusal :=
  match i with
  -- 40_frame_codec.md
  | .validate raw => Sys2Proof.Machine.execValidate raw s
  | .encode b => Sys2Proof.Machine.execEncode b s
  -- 41_receive_buffer.md
  | .push b => Sys2Proof.Machine.execPush b s
  | .readByte => Sys2Proof.Machine.execReadByte s
  | .bytesAvailable n => Sys2Proof.Machine.execBytesAvailable n s
  | .resetBuffer => Sys2Proof.Machine.execResetBuffer s
  -- 42_link_receive.md
  | .armReceive => Sys2Proof.Machine.execArmReceive s
  | .captureBit x => Sys2Proof.Machine.execCaptureBit x s
  | .onCaptureComplete raw => Sys2Proof.Machine.execOnCaptureComplete raw s
  | .onCaptureError => Sys2Proof.Machine.execOnCaptureError s
  | .teardownCapture => Sys2Proof.Machine.execTeardownCapture s
  | .restartCapture => Sys2Proof.Machine.execRestartCapture s
  -- 43_link_transmit.md
  | .sendByte b => Sys2Proof.Machine.execSendByte b s
  | .waitClk l => Sys2Proof.Machine.execWaitClk l s
  | .waitIdle => Sys2Proof.Machine.execWaitIdle s
  | .getAck => Sys2Proof.Machine.execGetAck s

end Sys2Proof.Machine
end

