-- ==== Sys2Proof/Machine/Schedule.lean ====
section
/-! DEFINITION. The steps of the five agents (10_state.md R40), each by `exec` of the operation the agent runs. -/

namespace Sys2Proof.Machine

/-- The blocking foreground call in progress, if any (10_state.md R30, 43_link_transmit.md R200, R210). -/
def State.call (s : State) : Option Instr :=
  match s.txPhase with
  | .at _ => some (.sendByte s.txByte)
  | .idle => if s.ackPhase = .idle then none else some .getAck

/-- A refused command word: no state changes, result `ok = 0, val = 0` (30_encoding.md R102). -/
def State.refuseCommand (s : State) : State := { s with ret := .refused }

/-- The foreground's step: the call in progress goes on; with none in progress the next command word is taken from
the host's program, decoded and run; with no word left the foreground does nothing (70_reset_and_hazards.md R311). -/
def foregroundStep (s : State) : Result :=
  match s.call with
  | some i => exec i s
  | none =>
    match s.program with
    | [] => .next s
    | w :: ws =>
      match decodeCmd w with
      | .ok i => exec i { s with program := ws }
      | .error _ => .next { s with program := ws }.refuseCommand

/-- The device's step: it sets its two drives, and a sampling edge of `CLK` is sampled in the same step, with the
level of `DATA` that holds at the edge, if the capture unit is armed and online (42_link_receive.md R172, R176). -/
def deviceStep (clk data : Drive) (s : State) : Result :=
  let t : State := { s with dClk := clk, dData := data }
  if s.captureEnabled && isSampleEdge s.cfg.sampleEdge s.clk t.clk then exec (.captureBit t.data) t
  else .next t

/-- The tick source's step: the tick advances, wrapping at `2^TICK_W` (10_state.md R34). -/
def State.advanceTick (s : State) (k : Nat) : State := { s with tick := (s.tick + k) % s.cfg.tickMod }

/-- The capture unit's error event, which can occur only while armed and online (42_link_receive.md R175, R176). -/
def captureErrorStep (s : State) : Result :=
  if s.captureEnabled then exec .onCaptureError s else .next s

/-- The step of the agent that an entry of the schedule names. -/
def agentStep (e : Event) (s : State) : Result :=
  match e with
  | .foreground => foregroundStep s
  | .device clk data => deviceStep clk data s
  | .tick k => .next (s.advanceTick k)
  | .captureError => captureErrorStep s

end Sys2Proof.Machine
end

