-- ==== Sys2Proof/Machine/Step.lean ====
section
/-! DEFINITION. One step of the machine: the agent that the schedule names takes one step (20_memory.md R69). -/

namespace Sys2Proof.Machine

/-- One step. With nothing scheduled nothing happens (70_reset_and_hazards.md R311); a configuration outside
00_scope.md R6 is refused (93_implementation_defined.md U16). -/
def step (s : State) : Host.Outcome State Fault Refusal :=
  if s.cfg.wf then
    match s.schedule with
    | [] => .next s
    | e :: rest => agentStep e { s with schedule := rest }
  else .refused .unsupportedConfiguration

/-- `s` with the command word `w` as the next one the host issues and the foreground as the next agent to step, no
foreground call being in progress (log entry 12). -/
def State.withFetchWord (s : State) (_nbits w : Nat) : State :=
  { s with
    program := BitVec.ofNat 12 w :: s.program
    schedule := .foreground :: s.schedule
    txPhase := .idle
    ackPhase := .idle
    waiting := false }

end Sys2Proof.Machine
end

