-- ==== Sys2Proof/Machine/Errors.lean ====
section
/-! DEFINITION. Which error kind an operation raises (60_exceptions.md R270). "No state records it" (00_scope.md R9):
the kinds are read off the state before the step and are no part of the state. -/

namespace Sys2Proof.Machine

/-- `Overflow` (41_receive_buffer.md R142). -/
def pushError (s : State) : Option ErrorKind := if s.isFull then some .overflow else none

/-- The error of a completion: the codec's, or the push's (42_link_receive.md R174). -/
def completionError (raw : RawFrame) (s : State) : Option ErrorKind :=
  match frameError s.cfg raw with
  | some e => some e
  | none => pushError s

/-- The error of a bounded wait: `k` when it times out (43_link_transmit.md R203, R206). -/
def waitError (k : ErrorKind) : WaitOutcome → Option ErrorKind
  | .seen => none
  | .timeout => some k
  | .again => none

/-- The error of a step of `send_byte` at phase `i` (43_link_transmit.md R200: `ClkTimeout`, `IdleTimeout`). -/
def txError (i : Nat) (s : State) : Option ErrorKind :=
  match txAction s.cfg s.txByte i with
  | some (.waitClk l) => waitError .clkTimeout (s.waitClkStep l).1
  | some .waitIdle => waitError .idleTimeout s.waitIdleStep.1
  | some .teardown => none
  | some (.pin _) => none
  | some .hold => none
  | none => none

/-- The error of a step of `get_ack` (43_link_transmit.md R210: `AckTimeout`, `AckWrong`; 60_exceptions.md R270
counts the buffer-empty condition with `AckTimeout`). -/
def ackError (s : State) : Option ErrorKind :=
  match s.ackPhase with
  | .g5 => if s.hasBytes 1 then none else if s.cfg.tAck ≤ s.elapsed then some .ackTimeout else none
  | .g6 => if s.isEmpty then some .ackTimeout else none
  | .g7 v => if v = s.cfg.ackCode then none else some .ackWrong
  | .idle => none
  | .g2 => none
  | .g3 => none
  | .g4 => none

/-- The error kind that `i` raises in the step it takes from `s` (60_exceptions.md R270, "raised by"). -/
def raises (i : Instr) (s : State) : Option ErrorKind :=
  match i with
  | .validate raw => frameError s.cfg raw
  | .encode _ => none
  | .push _ => pushError s
  | .readByte => if s.isEmpty then some .noData else none
  | .bytesAvailable _ => none
  | .resetBuffer => none
  | .armReceive => none
  | .captureBit x => if s.capCnt.val + 1 < 11 then none else completionError (s.sampled x) s
  | .onCaptureComplete raw => completionError raw s
  | .onCaptureError => some .captureError
  | .teardownCapture => none
  | .restartCapture => none
  | .sendByte _ =>
    match s.txPhase with
    | .idle => none
    | .at p => txError p s
  | .waitClk l => waitError .clkTimeout (s.waitClkStep l).1
  | .waitIdle => waitError .idleTimeout s.waitIdleStep.1
  | .getAck => ackError s

end Sys2Proof.Machine
end

