-- ==== Sys2Proof/Safety.lean ====
section
/-! DEFINITION. What a safe state and a safe run are: the invariants of 10_state.md R41 with the facts that make them
inductive, and the observations claims are stated in. -/

namespace Sys2Proof.Machine

/-- The invariants (I-a) to (I-g) of 10_state.md R41. -/
structure SpecInv (s : State) : Prop where
  /-- (I-a) -/
  wr_lt : s.wr < s.cfg.fifoN
  /-- (I-a) -/
  rd_lt : s.rd < s.cfg.fifoN
  /-- (I-b) -/
  count_le : s.count ≤ s.cfg.fifoN - 1
  /-- (I-c): every queued slot has been written. -/
  queued_written : ∀ k, k < s.count → (readSlot s.buf ((s.rd + k) % s.cfg.fifoN)).isSome = true
  /-- (I-d) -/
  armed_online : s.armed = true → s.capOnline = true
  /-- (I-e) -/
  disarmed_no_frame : s.armed = false → s.capCnt = 0
  /-- (I-e) -/
  capCnt_le : s.capCnt.val ≤ 10
  /-- (I-f) -/
  online_quiet : s.capOnline = true → s.hClk = .released ∧ s.hData = .released ∧ s.txPhase = .idle
  /-- (I-g) -/
  transmit_offline : s.txPhase ≠ .idle → s.capOnline = false ∧ s.armed = false

/-- The phase of the step table at which a bounded wait can be in its loop. -/
def isWaitPhase (c : Config) (b : Byte) (i : Nat) : Bool :=
  match txAction c b i with
  | some (.waitClk _) => true
  | some .waitIdle => true
  | some .teardown => false
  | some (.pin _) => false
  | some .hold => false
  | none => false

/-- What a step of `get_ack` still to come relies on: the unit is online from (g2) on and armed from (g3) on, and
(g6) finds a byte (43_link_transmit.md R210, "only the foreground removes bytes"). -/
def ackReady (s : State) : AckPhase → Prop
  | .idle => True
  | .g2 => True
  | .g3 => s.capOnline = true ∧ s.armed = false
  | .g4 => s.armed = true
  | .g5 => s.armed = true
  | .g6 => s.armed = true ∧ 1 ≤ s.count
  | .g7 _ => s.armed = true

/-- The invariant of the machine: the spec's own invariants and what makes them inductive. -/
structure Inv (s : State) : Prop where
  cfg_wf : s.cfg.wf = true
  spec : SpecInv s
  /-- The slot array keeps its canonical form. -/
  buf_wf : Memory.wf s.buf
  /-- Only slots of the index space `[0, FIFO_N)` are written (10_state.md R37). -/
  buf_range : ∀ c ∈ s.buf, c.1 < s.cfg.fifoN
  /-- The tick and its snapshot are `TICK_W`-bit values (10_state.md R34, R35). -/
  tick_lt : s.tick < s.cfg.tickMod
  waitT0_lt : s.waitT0 < s.cfg.tickMod
  /-- The transmit phase is `IDLE` or a step index that a step leaves: 1 to `TX_LAST` (10_state.md R30). -/
  phase_range : ∀ i, s.txPhase = .at i → 1 ≤ i ∧ i ≤ s.cfg.txLast
  /-- One foreground call at a time (10_state.md R40). -/
  one_call : s.txPhase ≠ .idle → s.ackPhase = .idle
  /-- The host drives the two lines as the step table says (43_link_transmit.md R205). -/
  clock_pin : s.hClk = clockDrive s.txPhase
  data_pin : s.hData = wireDrive s.cfg s.txByte s.txPhase
  /-- A wait is in its loop only at a wait phase. -/
  waiting_phase : s.waiting = true → ∃ i, s.txPhase = .at i ∧ isWaitPhase s.cfg s.txByte i = true
  ack_ready : ackReady s s.ackPhase

/-- `n` steps from `s` lead to `t`. -/
def Runs (n : Nat) (s t : State) : Prop := Host.Core.run Sys2Proof.core n s = .next t

/-- The pin action that the next step makes (92_eei_decisions.md D30: "the sequence of host pin drives"). -/
def pinActionOf (s : State) : Option PinAction :=
  match s.schedule, s.txPhase with
  | .foreground :: _, .at i =>
    match txAction s.cfg s.txByte i with
    | some (.pin a) => some a
    | _ => none
  | _, _ => none

/-- The pin actions of the next `n` steps, in order. -/
def pinTrace : Nat → State → List PinAction
  | 0, _ => []
  | n + 1, s =>
    (pinActionOf s).toList ++
      match step s with
      | .next t => pinTrace n t
      | .fault _ => []
      | .refused _ => []

/-- Two states that agree on everything but the values 10_state.md R42 calls unspecified and no rule has written yet:
the samples not yet taken (R23), `tx_byte` while no transmission is in progress (R28), `wait_t0` outside a wait (R35). -/
structure AgreeOnWritten (s t : State) : Prop where
  rest : t = { s with capSr := t.capSr, txByte := t.txByte, waitT0 := t.waitT0 }
  samples : ∀ i, i < s.capCnt.val → t.capSr.getLsbD i = s.capSr.getLsbD i
  latch : s.txPhase ≠ .idle → t.txByte = s.txByte
  snapshot : s.waiting = true ∨ s.ackPhase = .g5 → t.waitT0 = s.waitT0

/-- The clock pulses of one device-to-host frame (30_encoding.md R94): for each bit the device pulls the clock low and
lets it go, the data line carrying the bit. -/
def framePulses (raw : RawFrame) : List Event :=
  (List.range 11).flatMap fun i =>
    [.device .low (bitDrive (raw.getLsbD i)), .device .released (bitDrive (raw.getLsbD i))]

/-- The pin actions of `send_byte(b)`, from the frame (95_test_vectors.md T1): clock low, data low, clock released, then
slots 1 to 10 of `encode(b)` on the data line. -/
def sendPins (c : Config) (b : Byte) : List PinAction :=
  [.driveLow .clock, .driveLow .data, .release .clock] ++
    (List.range 10).map fun k => setDataAction ((encodeFrame c b).getLsbD (k + 1))

/-- Rounds of a schedule: the device does anything, the tick advances by `T`, the foreground takes a step. -/
def rounds (T : Nat) (ds : List (List (Drive × Drive))) : List Event :=
  ds.flatMap fun d => d.map (fun p => .device p.1 p.2) ++ [.tick T, .foreground]

/-- By how much an agent's step advances the tick. -/
def tickAdvance : Event → Nat
  | .foreground => 0
  | .device _ _ => 0
  | .tick k => k
  | .captureError => 0

/-- By how much a list of steps advances the tick. -/
def ticksIn (es : List Event) : Nat := (es.map tickAdvance).sum

/-- The first `n` passes of a foreground call: before pass `i` the other agents take the steps `gaps i` ("between two
passes the device and the tick may take any number of steps", 43_link_transmit.md R203). -/
def passes (gaps : Nat → List Event) (n : Nat) : List Event :=
  (List.range n).flatMap fun i => gaps i ++ [.foreground]

/-- What lies between two passes is steps of agents other than the foreground; which, and how many, is open. -/
def OthersOnly (gaps : Nat → List Event) : Prop := ∀ i, ∀ e ∈ gaps i, e ≠ .foreground

/-- The fairness assumption on the tick agent (60_exceptions.md R288): after every pass a later gap advances the
tick. It asks nothing of the device or of the capture unit, and bounds no distance between two advances. -/
def TickFair (gaps : Nat → List Event) : Prop := ∀ i, ∃ j, i ≤ j ∧ 1 ≤ ticksIn (gaps j)

/-- The condition of 43_link_transmit.md R214 for a timeout to be seen across a wrap: between two passes the tick does
not run so far that it skips the whole range in which a wait of bound `T` reads as timed out (log entry 29). -/
def PolledInTime (c : Config) (gaps : Nat → List Event) : Prop :=
  ∀ i, ticksIn (gaps i) + c.tClkWait ≤ c.tickMod ∧ ticksIn (gaps i) + c.tIdle ≤ c.tickMod ∧
    ticksIn (gaps i) + c.tAck ≤ c.tickMod

/-- A bounded wait is in its loop, its condition does not hold and its time has not run out: the clock wait and the
idle wait of `send_byte`, and (g5) of `get_ack` (43_link_transmit.md R203, R206, R210). -/
inductive StillWaiting (s : State) : Prop where
  | clk (i : Nat) (l : Level) (phase : s.txPhase = .at i) (row : txAction s.cfg s.txByte i = some (.waitClk l))
      (loop : s.waiting = true) (level : s.clk ≠ l) (time : s.elapsed < s.cfg.tClkWait)
  | idle (i : Nat) (phase : s.txPhase = .at i) (row : txAction s.cfg s.txByte i = some .waitIdle)
      (loop : s.waiting = true) (level : s.clk = .low ∨ s.data = .low) (time : s.elapsed < s.cfg.tIdle)
  | ack (phase : s.txPhase = .idle) (loop : s.ackPhase = .g5) (level : s.count = 0) (time : s.elapsed < s.cfg.tAck)

end Sys2Proof.Machine
end

