-- ==== Sys2Proof/Certificates/Slice0/Obligations.lean ====
section
/-! DEFINITION. The statements for the provers, one `def Obligations.<Name> : Prop` each; OBLIGATIONS.json lists them.
A next state `t` is given field by field, and `t = { s with … }` is the frame: every field not named is as in `s`. -/

open Sys2Proof Sys2Proof.Machine

/-! ### Encoding and the step -/

/-- Words of the spec's vectors (95_test_vectors.md B1, B3, C2, P3, "Malformed command words") decode to the
operations they stand for, or are refused by name. -/
def Obligations.VectorWordsDecode : Prop :=
  decodeCmd 0x100#12 = .ok .armReceive ∧
  decodeCmd 0x200#12 = .ok (.bytesAvailable 0#8) ∧
  decodeCmd 0x2FF#12 = .ok (.bytesAvailable 255#8) ∧
  decodeCmd 0x300#12 = .ok .readByte ∧
  decodeCmd 0x4F4#12 = .ok (.sendByte 0xF4#8) ∧
  decodeCmd 0x500#12 = .ok .getAck ∧
  decodeCmd 0x000#12 = .error (.unassignedOp 0#4) ∧
  decodeCmd 0x7AB#12 = .error (.unassignedOp 7#4) ∧
  decodeCmd 0x101#12 = .error (.operandNotAllowed 1#4 1#8) ∧
  decodeCmd 0x3FF#12 = .error (.operandNotAllowed 3#4 255#8) ∧
  decodeCmd 0x501#12 = .error (.operandNotAllowed 5#4 1#8)

/-- Decode and encode agree: every operation that a command word selects (with every operand) encodes to a word
that decodes to it, and every word that decodes is the encoding of what it decodes to. The `op` numbers are the
spec's own decision D20. -/
def Obligations.CommandDecodeEncodeAgree : Prop :=
  (∀ i : Instr, i.isCommand = true → ∃ w, encode i = some w ∧ decodeCmd w = .ok i) ∧
  (∀ (w : CmdWord) (i : Instr), decodeCmd w = .ok i → i.isCommand = true ∧ encode i = some w)

/-- 30_encoding.md R102 (decision D20): which words are refused, and that a refused word changes no state and gives
`ok = 0, val = 0`. That the host's word and the schedule entry are consumed is the model's choice (log entries 4
and 5). -/
def Obligations.MalformedWordsAreRefused : Prop :=
  (∀ w : CmdWord,
    (∀ i, decodeCmd w ≠ .ok i) ↔
      (cmdOp w ∉ [1#4, 2#4, 3#4, 4#4, 5#4] ∨ (cmdOp w ∈ [1#4, 3#4, 5#4] ∧ cmdArg w ≠ 0#8))) ∧
  (∀ (s : State) (w : CmdWord) (ws : List CmdWord) (rest : List Event),
    s.cfg.wf = true → s.schedule = .foreground :: rest → s.txPhase = .idle → s.ackPhase = .idle →
    s.program = w :: ws → (∀ i, decodeCmd w ≠ .ok i) →
    ∃ t, step s = .next t ∧ t.ret.word = some 0#9 ∧
      t = { s with ret := .refused, program := ws, schedule := rest })

/-- A step runs the decoded instruction: with no call in progress and a word that decodes to `i` next in the host's
program, the foreground's step is `exec i` with the word and the schedule entry consumed (log entry 4). -/
def Obligations.StepRunsDecodedInstruction : Prop :=
  ∀ (s : State) (w : CmdWord) (ws : List CmdWord) (rest : List Event) (i : Instr),
    s.cfg.wf = true → s.schedule = .foreground :: rest → s.txPhase = .idle → s.ackPhase = .idle →
    s.program = w :: ws → decodeCmd w = .ok i →
    step s = exec i { s with program := ws, schedule := rest }

/-- A foreground step while a call is in progress is the next step of that call: `exec` of the `send_byte` whose
byte is latched, or of `get_ack` (log entry 11); with no call and no word nothing happens. -/
def Obligations.StepContinuesTheCall : Prop :=
  (∀ (s : State) (rest : List Event) (i : Nat),
    s.cfg.wf = true → s.schedule = .foreground :: rest → s.txPhase = .at i →
    step s = exec (.sendByte s.txByte) { s with schedule := rest }) ∧
  (∀ (s : State) (rest : List Event),
    s.cfg.wf = true → s.schedule = .foreground :: rest → s.txPhase = .idle → s.ackPhase ≠ .idle →
    step s = exec .getAck { s with schedule := rest }) ∧
  (∀ (s : State) (rest : List Event),
    s.cfg.wf = true → s.schedule = .foreground :: rest → s.txPhase = .idle → s.ackPhase = .idle →
    s.program = [] → step s = .next { s with schedule := rest })

/-- 42_link_receive.md R172 (decisions D5, D6), "Enabled": a device step that makes a `SAMPLE_EDGE` of `CLK` while
armed and online is `exec` of `capture_bit` with the level `DATA` has after the step (log entry 9). -/
def Obligations.SamplingEdgeRunsCaptureBit : Prop :=
  ∀ (s : State) (rest : List Event) (c d : Drive),
    s.cfg.wf = true → s.schedule = .device c d :: rest → s.armed = true → s.capOnline = true →
    (s.cfg.sampleEdge = .falling ∧ s.clk = .high ∧ lineLevel s.hClk c = .low ∨
      s.cfg.sampleEdge = .rising ∧ s.clk = .low ∧ lineLevel s.hClk c = .high) →
    step s = exec (.captureBit (lineLevel s.hData d)) { s with dClk := c, dData := d, schedule := rest }

/-- 42_link_receive.md R176 (decision D12): while not armed or offline no clock edge is sampled and no completion
and no error event occurs; edges of the non-sampling kind are never sampled. That the schedule entry is passed over is log
entry 10. -/
def Obligations.DisabledEventsDoNothing : Prop :=
  (∀ (s : State) (rest : List Event) (c d : Drive),
    s.cfg.wf = true → s.schedule = .device c d :: rest →
    (s.armed = false ∨ s.capOnline = false ∨ s.clk = lineLevel s.hClk c ∨
      (s.cfg.sampleEdge = .falling ∧ s.clk = .low) ∨ (s.cfg.sampleEdge = .rising ∧ s.clk = .high)) →
    step s = .next { s with dClk := c, dData := d, schedule := rest }) ∧
  (∀ (s : State) (rest : List Event),
    s.cfg.wf = true → s.schedule = .captureError :: rest → (s.armed = false ∨ s.capOnline = false) →
    step s = .next { s with schedule := rest })

/-- 10_state.md R34 (decision D8) and 70_reset_and_hazards.md R311 (D22): the tick source advances the tick by any
amount (log entry 23), wrapping at `2^TICK_W`; with nothing scheduled nothing happens. The schedule is the model's (log
entry 4). -/
def Obligations.TickSourceAndIdleSteps : Prop :=
  (∀ (s : State) (rest : List Event) (k : Nat),
    s.cfg.wf = true → s.schedule = .tick k :: rest →
    step s = .next { s with tick := (s.tick + k) % 2 ^ s.cfg.tickW, schedule := rest }) ∧
  (∀ s : State, s.cfg.wf = true → s.schedule = [] → step s = .next s)

/-- 93_implementation_defined.md U16: a configuration the rules do not hold for is refused; so is one outside the
other ranges of 00_scope.md R6 (log entry 22). -/
def Obligations.UnsupportedConfigurationRefused : Prop :=
  ∀ s : State,
    (s.cfg.fifoN < 2 ∨ s.cfg.tClkWait < 1 ∨ s.cfg.tIdle < 1 ∨ s.cfg.tAck < 1 ∨ s.cfg.tInhibit < 1 ∨
      s.cfg.tickW < 8 ∨ s.cfg.tickMod ≤ s.cfg.tClkWait ∨ s.cfg.tickMod ≤ s.cfg.tIdle ∨
      s.cfg.tickMod ≤ s.cfg.tAck) →
    step s = .refused .unsupportedConfiguration

/-! ### Reset and whole-machine rules -/

/-- The reset state of 10_state.md R42 (decision D22), for every configuration and every value of what R42 leaves
unspecified; `State.reset` is one of them (its own values are log entries 1 to 3). -/
def Obligations.ResetLeavesTheQuietState : Prop :=
  (∀ (c : Config) (u : ResetOpen),
    let s := State.resetWith c u
    s.cfg = c ∧ s.wr = 0 ∧ s.rd = 0 ∧ s.queue = [] ∧ s.isEmpty = true ∧ s.armed = false ∧ s.capOnline = false ∧
      s.capCnt = 0 ∧ s.txPhase = .idle ∧ s.hClk = .released ∧ s.hData = .released ∧
      ∀ i, readSlot s.buf i = none) ∧
  ∃ c u, State.reset = State.resetWith c u

/-- "Each holds at reset" (10_state.md R41): the invariant holds after reset, for every configuration the spec
allows and every tick the counter can hold. -/
def Obligations.ResetMeetsTheInvariant : Prop :=
  ∀ (c : Config) (u : ResetOpen), c.wf = true → u.tick < c.tickMod → u.waitT0 < c.tickMod →
    Inv (State.resetWith c u)

/-- "... and is kept by every operation rule" (10_state.md R41), and "No error kind is fatal" (60_exceptions.md
R276): from every state that meets the invariant, whatever agent the schedule names, the machine goes on, with no
fault and no refusal, to a state that meets it. -/
def Obligations.EveryStepIsSafeAndKeepsInv : Prop :=
  ∀ s : State, Inv s → ∃ t, step s = .next t ∧ Inv t

/-- The parameters are "fixed for the life of a model" (10_state.md R39). -/
def Obligations.ParametersNeverChange : Prop :=
  ∀ s t : State, step s = .next t → t.cfg = s.cfg

/-- 10_state.md R36, the writers: a step of the device, the tick source or the capture unit writes only `buf`, `wr`,
`cap_cnt`, `cap_sr` and the inputs themselves. -/
def Obligations.OutsideAgentsWriteOnlyTheirState : Prop :=
  ∀ (s t : State) (e : Event) (rest : List Event),
    Inv s → s.schedule = e :: rest → e ≠ .foreground → step s = .next t →
    t = { s with
      buf := t.buf, wr := t.wr, capCnt := t.capCnt, capSr := t.capSr,
      dClk := t.dClk, dData := t.dData, tick := t.tick, schedule := rest }

/-- 10_state.md R36, R24, R32, R34, the writers: a foreground step writes no slot, no sample and no input, and it
writes `wr` only as the first step of a `get_ack` call. -/
def Obligations.ForegroundWritesNoSlotNoInput : Prop :=
  ∀ (s t : State) (rest : List Event),
    s.schedule = .foreground :: rest → step s = .next t →
    t.buf = s.buf ∧ t.capSr = s.capSr ∧ t.dClk = s.dClk ∧ t.dData = s.dData ∧ t.tick = s.tick ∧
      t.schedule = rest ∧
      (t.wr = s.wr ∨
        (t.wr = 0 ∧ s.txPhase = .idle ∧ s.ackPhase = .idle ∧ ∃ ws, s.program = 0x500#12 :: ws))

/-- 10_state.md R42 ("a model must not give the element a value a proof could use"): the values of `cap_sr`,
`tx_byte` and `wait_t0` that no rule has written never show. Two states that agree on all the rest take the same
step, to two states that agree on all the rest. -/
def Obligations.UnspecifiedValuesNeverShow : Prop :=
  ∀ s t s' : State, AgreeOnWritten s t → step s = .next s' →
    ∃ t', step t = .next t' ∧ AgreeOnWritten s' t'

/-- 42_link_receive.md R179: after every completion-context step the receive path is armed, online, at `cap_cnt = 0`. -/
def Obligations.CompletionStepsRearm : Prop :=
  ∀ (s : State) (e : Event) (rest : List Event),
    Inv s → s.schedule = e :: rest → s.armed = true →
    (e = .captureError ∨
      ∃ c d, e = .device c d ∧ s.capCnt.val = 10 ∧ isSampleEdge s.cfg.sampleEdge s.clk (lineLevel s.hClk c) = true) →
    ∃ t, step s = .next t ∧ t.armed = true ∧ t.capOnline = true ∧ t.capCnt = 0

/-- 20_memory.md R66: the answer of `bytes_available(n)` can only change from false to true unless the foreground
itself acts in between. -/
def Obligations.AvailabilityOnlyGrowsOutsideForeground : Prop :=
  ∀ (s t : State) (e : Event) (rest : List Event) (n : Nat),
    Inv s → s.schedule = e :: rest → e ≠ .foreground → step s = .next t →
    s.hasBytes n = true → t.hasBytes n = true

/-! ### Operand forms -/

/-- 10_state.md R33 (decision D25; general knowledge, log entry 24): a line is `LOW` iff the host or the device drives it low. -/
def Obligations.LinesResolveOpenDrain : Prop :=
  ∀ s : State,
    (s.clk = .low ↔ s.hClk = .low ∨ s.dClk = .low) ∧ (s.data = .low ↔ s.hData = .low ∨ s.dData = .low) ∧
    (s.clk = .high ↔ s.hClk = .released ∧ s.dClk = .released) ∧
    (s.data = .high ↔ s.hData = .released ∧ s.dData = .released)

/-- 41_receive_buffer.md R145: the successor and the difference of indices, their ranges, and that no intermediate
needs more than `IDX_W + 1` bits. -/
def Obligations.IndexArithmeticIsModulo : Prop :=
  ∀ s : State, 2 ≤ s.cfg.fifoN → s.wr < s.cfg.fifoN → s.rd < s.cfg.fifoN →
    (∀ i, i < s.cfg.fifoN → s.succIndex i = if i < s.cfg.fifoN - 1 then i + 1 else 0) ∧
    s.count = (if s.rd ≤ s.wr then s.wr - s.rd else s.wr + s.cfg.fifoN - s.rd) ∧
    s.count < s.cfg.fifoN ∧ s.succIndex s.wr < s.cfg.fifoN ∧ s.succIndex s.rd < s.cfg.fifoN ∧
    s.cfg.fifoN ≤ 2 ^ s.cfg.idxW ∧ 2 ^ s.cfg.idxW < 2 * s.cfg.fifoN ∧
    s.wr + s.cfg.fifoN < 2 ^ (s.cfg.idxW + 1)

/-- 10_state.md R25: `empty` is the same as `count = 0` and `full` the same as `count = FIFO_N - 1`. -/
def Obligations.EmptyAndFullAreCounts : Prop :=
  ∀ s : State, 2 ≤ s.cfg.fifoN → s.wr < s.cfg.fifoN → s.rd < s.cfg.fifoN →
    (s.wr = s.rd ↔ s.count = 0) ∧ ((s.wr + 1) % s.cfg.fifoN = s.rd ↔ s.count = s.cfg.fifoN - 1) ∧
    (s.isEmpty = true ↔ s.wr = s.rd) ∧ (s.isFull = true ↔ (s.wr + 1) % s.cfg.fifoN = s.rd)

/-- 43_link_transmit.md R214 (decision D8): the elapsed time is right across a wrap of the tick: `d < 2^TICK_W`
ticks after the snapshot it is `d`. -/
def Obligations.ElapsedIsRightAcrossWrap : Prop :=
  ∀ (s : State) (d : Nat), s.waitT0 < s.cfg.tickMod → d < s.cfg.tickMod →
    s.tick = (s.waitT0 + d) % s.cfg.tickMod → s.elapsed = d

/-! ### Frame Codec -/

/-- 40_frame_codec.md R121: `validate(raw)` for every 11-bit `raw`: the result and the error kind by the two tests
in their order, and no state written but the returned value. -/
def Obligations.ValidateTestsFramingThenParity : Prop :=
  ∀ (raw : RawFrame) (s : State),
    ((raw.getLsbD 0 = true ∨ raw.getLsbD 10 = false) →
      exec (.validate raw) s = .next { s with ret := .validated none } ∧
      raises (.validate raw) s = some .framingError) ∧
    (raw.getLsbD 0 = false → raw.getLsbD 10 = true →
      raw.getLsbD 9 ≠ (xor8 (raw.extractLsb' 1 8) ^^ s.cfg.parityOdd) →
      exec (.validate raw) s = .next { s with ret := .validated none } ∧
      raises (.validate raw) s = some .parityError) ∧
    (raw.getLsbD 0 = false → raw.getLsbD 10 = true →
      raw.getLsbD 9 = (xor8 (raw.extractLsb' 1 8) ^^ s.cfg.parityOdd) →
      exec (.validate raw) s = .next { s with ret := .validated (some (raw.extractLsb' 1 8)) } ∧
      raises (.validate raw) s = none)

/-- 40_frame_codec.md R123 and 30_encoding.md R97: `encode(b)` bit by bit, no state written but the returned value,
no error. -/
def Obligations.EncodeFramesTheByte : Prop :=
  ∀ (b : Byte) (s : State), ∃ f : RawFrame,
    exec (.encode b) s = .next { s with ret := .frame f } ∧ raises (.encode b) s = none ∧
    f.getLsbD 0 = false ∧ f.getLsbD 10 = true ∧ f.getLsbD 9 = (xor8 b ^^ s.cfg.parityOdd) ∧
    (∀ k, k < 8 → f.getLsbD (k + 1) = b.getLsbD k)

/-- 30_encoding.md R91: a frame is valid iff start 0, stop 1 and parity right; the valid frames are exactly the
frames `encode(b)`, one per byte. -/
def Obligations.ValidFramesAreTheEncodedBytes : Prop :=
  ∀ (c : Config) (raw : RawFrame),
    ((validateFrame c raw).isSome = true ↔
      raw.getLsbD 0 = false ∧ raw.getLsbD 10 = true ∧
        raw.getLsbD 9 = (xor8 (raw.extractLsb' 1 8) ^^ c.parityOdd)) ∧
    ((validateFrame c raw).isSome = true ↔ ∃ b, raw = encodeFrame c b) ∧
    (∀ a b : Byte, encodeFrame c a = encodeFrame c b → a = b)

/-- 40_frame_codec.md R124: the round trip, in both directions. -/
def Obligations.CodecRoundTrip : Prop :=
  ∀ c : Config,
    (∀ b : Byte, validateFrame c (encodeFrame c b) = some b) ∧
    (∀ (raw : RawFrame) (d : Byte), validateFrame c raw = some d → raw = encodeFrame c d)

/-- 40_frame_codec.md R125: every single-bit change of a valid frame is rejected; every change of two of the bits 9
to 1 gives another valid frame, of another byte. -/
def Obligations.SingleBitErrorsAreDetected : Prop :=
  ∀ (c : Config) (raw : RawFrame) (d : Byte), validateFrame c raw = some d →
    (∀ i, i < 11 → validateFrame c (raw ^^^ (1#11 <<< i)) = none) ∧
    (∀ i j, 1 ≤ i → i ≤ 9 → 1 ≤ j → j ≤ 9 → i ≠ j →
      ∃ e, validateFrame c (raw ^^^ (1#11 <<< i) ^^^ (1#11 <<< j)) = some e ∧ e ≠ d)

/-- 40_frame_codec.md R122: of the 2048 RawFrame values 256 are valid, 1536 are framing errors and 256 are parity
errors, for either parity; with even parity the sum of the valid ones is 392960 and their exclusive-or 0. -/
def Obligations.FrameCounts : Prop :=
  ∀ c : Config,
    let all := (List.range 2048).map (BitVec.ofNat 11)
    let valid := all.filter fun raw => (validateFrame c raw).isSome
    valid.length = 256 ∧
    (all.filter fun raw => frameError c raw == some .framingError).length = 1536 ∧
    (all.filter fun raw => frameError c raw == some .parityError).length = 256 ∧
    (c.parityOdd = false → (valid.map BitVec.toNat).sum = 392960 ∧ valid.foldl (· ^^^ ·) 0#11 = 0#11)

/-! ### Receive Buffer -/

/-- 41_receive_buffer.md R141, R142: `push(b)` into a buffer that is not full writes slot `wr` and advances `wr` modulo
`FIFO_N`; every other slot and every other element of the state is unchanged. When full it raises `Overflow` and
changes nothing: not `wr`, not `rd`, not any slot. -/
def Obligations.PushStoresOrDropsNewest : Prop :=
  ∀ (b : Byte) (s : State),
    (s.wr < s.cfg.fifoN → (s.wr + 1) % s.cfg.fifoN ≠ s.rd →
      ∃ t, exec (.push b) s = .next t ∧ raises (.push b) s = none ∧
        readSlot t.buf s.wr = some b ∧ (∀ a, a ≠ s.wr → readSlot t.buf a = readSlot s.buf a) ∧
        t.wr = (s.wr + 1) % s.cfg.fifoN ∧ t = { s with buf := t.buf, wr := t.wr }) ∧
    ((s.wr + 1) % s.cfg.fifoN = s.rd →
      exec (.push b) s = .next s ∧ raises (.push b) s = some .overflow)

/-- 41_receive_buffer.md R143: `read_byte()` on a buffer whose read slot has been written returns its byte and
advances `rd` modulo `FIFO_N`, no slot changing; on an empty buffer it raises `NoData`, returns none and writes
nothing. One step, by the leave of 20_memory.md R73 (log entry 8). -/
def Obligations.ReadByteTakesTheOldest : Prop :=
  ∀ s : State,
    (∀ v, s.wr ≠ s.rd → s.rd < s.cfg.fifoN → readSlot s.buf s.rd = some v →
      exec .readByte s = .next { s with rd := (s.rd + 1) % s.cfg.fifoN, ret := .byte (some v) } ∧
      raises .readByte s = none) ∧
    (s.wr = s.rd →
      exec .readByte s = .next { s with ret := .byte none } ∧ raises .readByte s = some .noData)

/-- 41_receive_buffer.md R144 (decision D19): `bytes_available(n)` answers `count >= n` and writes nothing but the
returned value; 0 is always available, `FIFO_N` or more never. -/
def Obligations.BytesAvailableComparesCount : Prop :=
  ∀ (n : Byte) (s : State), 2 ≤ s.cfg.fifoN → s.wr < s.cfg.fifoN → s.rd < s.cfg.fifoN →
    ∃ r, exec (.bytesAvailable n) s = .next { s with ret := .bool r } ∧
      (r = true ↔ n.toNat ≤ (if s.rd ≤ s.wr then s.wr - s.rd else s.wr + s.cfg.fifoN - s.rd)) ∧
      (n = 0#8 → r = true) ∧ (s.cfg.fifoN ≤ n.toNat → r = false)

/-- 41_receive_buffer.md R146 (decision D15): `reset_buffer()` sets both indices to 0 and clears no slot. -/
def Obligations.ResetBufferZeroesIndices : Prop :=
  ∀ s : State, exec .resetBuffer s = .next { s with wr := 0, rd := 0 } ∧
    (0 < s.cfg.fifoN → ({ s with wr := 0, rd := 0 } : State).queue = [])

/-- 41_receive_buffer.md R147: the buffer is a queue. `push` appends or, at `FIFO_N - 1` bytes, drops; `read_byte`
takes the head; `bytes_available` compares the length; `reset_buffer` empties. -/
def Obligations.BufferRefinesQueue : Prop :=
  ∀ s : State, Inv s →
    s.queue.length = s.count ∧
    (∀ b, ∃ t, exec (.push b) s = .next t ∧
      t.queue = if s.queue.length < s.cfg.fifoN - 1 then s.queue ++ [b] else s.queue) ∧
    (∀ h q, s.queue = h :: q →
      ∃ t, exec .readByte s = .next t ∧ t.ret = .byte (some h) ∧ t.queue = q) ∧
    (s.queue = [] → ∃ t, exec .readByte s = .next t ∧ t.ret = .byte none ∧ t.queue = []) ∧
    (∀ n, ∃ t, exec (.bytesAvailable n) s = .next t ∧ t.ret = .bool (decide (n.toNat ≤ s.queue.length)) ∧
      t.queue = s.queue) ∧
    (∃ t, exec .resetBuffer s = .next t ∧ t.queue = [])

/-- 20_memory.md R73: a `push` that falls inside a `read_byte` (after its test for empty, before its write of `rd`)
leaves the byte that is read, the read index and the non-emptiness as they were, so taking `read_byte` as one step
loses nothing. -/
def Obligations.PushInsideReadIsHarmless : Prop :=
  ∀ (b : Byte) (s : State), Inv s → s.wr ≠ s.rd →
    ∃ t, exec (.push b) s = .next t ∧ t.rd = s.rd ∧ t.wr ≠ t.rd ∧ readSlot t.buf s.rd = readSlot s.buf s.rd

/-- 20_memory.md R60 and 10_state.md R42 (93_implementation_defined.md U7): where the buffer operations stop: an index
outside `[0, FIFO_N)`, and a read of a slot never written (log entries 13 and 20). By `EveryStepIsSafeAndKeepsInv` no step from a state that meets the
invariant does either. -/
def Obligations.SlotAccessFaults : Prop :=
  (∀ (b : Byte) (s : State), s.cfg.fifoN ≤ s.wr → (s.wr + 1) % s.cfg.fifoN ≠ s.rd →
    exec (.push b) s = .fault (.slotOutOfRange s.wr)) ∧
  (∀ s : State, s.wr ≠ s.rd → s.cfg.fifoN ≤ s.rd → exec .readByte s = .fault (.slotOutOfRange s.rd)) ∧
  (∀ s : State, s.wr ≠ s.rd → s.rd < s.cfg.fifoN → readSlot s.buf s.rd = none →
    exec .readByte s = .fault (.unwrittenSlot s.rd)) ∧
  (∀ s : State, s.txPhase = .idle → s.ackPhase = .g6 → s.wr ≠ s.rd → s.cfg.fifoN ≤ s.rd →
    exec .getAck s = .fault (.slotOutOfRange s.rd)) ∧
  (∀ s : State, s.txPhase = .idle → s.ackPhase = .g6 → s.wr ≠ s.rd → s.rd < s.cfg.fifoN →
    readSlot s.buf s.rd = none → exec .getAck s = .fault (.unwrittenSlot s.rd)) ∧
  (∀ (raw : RawFrame) (b : Byte) (s : State), validateFrame s.cfg raw = some b → s.cfg.fifoN ≤ s.wr →
    (s.wr + 1) % s.cfg.fifoN ≠ s.rd → exec (.onCaptureComplete raw) s = .fault (.slotOutOfRange s.wr))

/-! ### Link Layer, receive path -/

/-- 42_link_receive.md R171 (decision D13): `arm_receive()` is a no-op when armed; otherwise it arms at
`cap_cnt = 0`, and brings an offline unit online with both pins released. -/
def Obligations.ArmReceiveArmsOnce : Prop :=
  ∀ s : State,
    (s.armed = true → exec .armReceive s = .next { s with ret := .done }) ∧
    (s.armed = false → s.capOnline = true →
      exec .armReceive s = .next { s with armed := true, capCnt := 0, ret := .done }) ∧
    (s.armed = false → s.capOnline = false →
      exec .armReceive s = .next { s with
        armed := true, capCnt := 0, capOnline := true, hClk := .released, hData := .released, ret := .done })

/-- 42_link_receive.md R172, R173 (decisions D5, D6, D17): `capture_bit` stores the sample in bit `cap_cnt` (`HIGH` as
1), keeps the other bits and counts; the 11th sample hands the whole of `cap_sr` to `on_capture_complete` in the same
step, with `cap_cnt = 0`. That the other bits keep their values is R172's pseudocode, not a promise (log entry 17). -/
def Obligations.CaptureBitStoresTheSample : Prop :=
  ∀ (x : Level) (s : State), ∃ sr : RawFrame,
    sr.getLsbD s.capCnt.val = decide (x = .high) ∧
    (∀ i, i ≠ s.capCnt.val → sr.getLsbD i = s.capSr.getLsbD i) ∧
    (s.capCnt.val < 10 →
      ∃ t, exec (.captureBit x) s = .next t ∧ t.capCnt.val = s.capCnt.val + 1 ∧
        t = { s with capSr := sr, capCnt := t.capCnt }) ∧
    (s.capCnt.val = 10 →
      exec (.captureBit x) s = exec (.onCaptureComplete sr) { s with capSr := sr, capCnt := 0 })

/-- `capture_bit` completes its step in every state that meets the invariant (42_link_receive.md R172, R173): it
answers a next state also when it completes the frame, and the foreground's elements are unchanged. -/
def Obligations.CaptureBitAlwaysCompletes : Prop :=
  ∀ (x : Level) (s : State), Inv s → s.armed = true →
    ∃ t, exec (.captureBit x) s = .next t ∧
      t = { s with buf := t.buf, wr := t.wr, capCnt := t.capCnt, capSr := t.capSr } ∧
      (t.buf = s.buf ∧ t.wr = s.wr ∧ t.capCnt.val = s.capCnt.val + 1 ∨ s.capCnt.val = 10 ∧ t.capCnt = 0)

/-- 42_link_receive.md R174: `on_capture_complete(raw)` while armed and online: a valid byte is pushed if the buffer is
not full, silently dropped if it is, an invalid frame pushes nothing, and in every case the unit is left armed at
`cap_cnt = 0`; every other slot and every other element is unchanged. -/
def Obligations.OnCaptureCompletePushesValidByte : Prop :=
  ∀ (raw : RawFrame) (s : State), s.armed = true → s.capOnline = true → s.wr < s.cfg.fifoN →
    (∀ b, validateFrame s.cfg raw = some b → (s.wr + 1) % s.cfg.fifoN ≠ s.rd →
      ∃ t, exec (.onCaptureComplete raw) s = .next t ∧
        readSlot t.buf s.wr = some b ∧ (∀ a, a ≠ s.wr → readSlot t.buf a = readSlot s.buf a) ∧
        t = { s with buf := t.buf, wr := (s.wr + 1) % s.cfg.fifoN, capCnt := 0 } ∧
        raises (.onCaptureComplete raw) s = none) ∧
    (∀ b, validateFrame s.cfg raw = some b → (s.wr + 1) % s.cfg.fifoN = s.rd →
      exec (.onCaptureComplete raw) s = .next { s with capCnt := 0 } ∧
        raises (.onCaptureComplete raw) s = some .overflow) ∧
    (validateFrame s.cfg raw = none →
      exec (.onCaptureComplete raw) s = .next { s with capCnt := 0 } ∧
        raises (.onCaptureComplete raw) s = frameError s.cfg raw)

/-- 42_link_receive.md R175 (decision D16): `on_capture_error()` discards the partial frame and re-arms; while armed
and online it writes nothing but `cap_cnt`, and the scheduled event runs it. -/
def Obligations.OnCaptureErrorDiscardsTheAttempt : Prop :=
  ∀ s : State, s.armed = true → s.capOnline = true →
    exec .onCaptureError s = .next { s with capCnt := 0 } ∧
    raises .onCaptureError s = some .captureError ∧
    (∀ rest, s.cfg.wf = true → s.schedule = .captureError :: rest →
      step s = .next { s with capCnt := 0, schedule := rest })

/-- 42_link_receive.md R177, R178 (decisions D12, D14): what `teardown_capture` and `restart_capture` write; everything
else, the buffer included, is unchanged. -/
def Obligations.TeardownAndRestartCapture : Prop :=
  ∀ s : State,
    exec .teardownCapture s = .next { s with armed := false, capCnt := 0, capOnline := false } ∧
    exec .restartCapture s = .next { s with
      hClk := .released, hData := .released, armed := false, capCnt := 0, capOnline := true }

/-- 30_encoding.md R94 with 42_link_receive.md R172 to R174, end to end, for either `SAMPLE_EDGE` (decision D5): eleven
clock pulses that carry `raw`, from an armed unit at `cap_cnt = 0` and a released clock, append the byte of a valid
frame to the queue (dropped when full), leave it alone for an invalid one, and leave the unit armed for the next. -/
def Obligations.DeviceFrameReachesTheQueue : Prop :=
  ∀ (s : State) (raw : RawFrame) (rest : List Event),
    Inv s → s.armed = true → s.capCnt = 0 → s.dClk = .released → s.schedule = framePulses raw ++ rest →
    ∃ t, Runs 22 s t ∧ t.schedule = rest ∧ t.armed = true ∧ t.capOnline = true ∧ t.capCnt = 0 ∧ t.rd = s.rd ∧
      t.queue =
        (match validateFrame s.cfg raw with
          | some b => if s.queue.length < s.cfg.fifoN - 1 then s.queue ++ [b] else s.queue
          | none => s.queue)

/-! ### Link Layer, transmit path -/

/-- 43_link_transmit.md R200 with 10_state.md R41 (I-f), (I-g): `send_byte(b)` with no call in progress latches `b` and
tears the capture unit down; the next step is phase 1. That latching and step 0 are one step is log entry 6. -/
def Obligations.SendByteLatchesAndTearsDown : Prop :=
  ∀ (b : Byte) (s : State), s.txPhase = .idle → s.ackPhase = .idle →
    exec (.sendByte b) s = .next { s with
      txByte := b, txPhase := .at 1, armed := false, capCnt := 0, capOnline := false, waiting := false,
      ret := .pending }

/-- 43_link_transmit.md R201 (decisions D9, D10): the step table of `send_byte`. -/
def Obligations.TransmitStepTable : Prop :=
  ∀ (c : Config) (b : Byte),
    txAction c b 0 = some .teardown ∧ txAction c b 1 = some (.pin (.driveLow .clock)) ∧
    txAction c b 2 = some .hold ∧ txAction c b 3 = some (.pin (.driveLow .data)) ∧
    txAction c b 4 = some (.pin (.release .clock)) ∧
    (∀ i, i < 8 →
      txAction c b (5 + 3 * i) = some (.waitClk c.reqLevel) ∧
      txAction c b (6 + 3 * i) = some (.pin (if b.getLsbD i then .release .data else .driveLow .data)) ∧
      txAction c b (7 + 3 * i) = some (.waitClk c.reqLevel.opposite)) ∧
    txAction c b 29 = some (.waitClk c.reqLevel) ∧
    txAction c b 30 = some (.pin (if xor8 b ^^ c.parityOdd then .release .data else .driveLow .data)) ∧
    txAction c b 31 = some (.waitClk c.reqLevel.opposite) ∧ txAction c b 32 = some (.pin (.release .data)) ∧
    txAction c b 33 = some (.waitClk c.reqLevel) ∧ txAction c b 34 = some (.waitClk c.reqLevel.opposite) ∧
    (c.txExtraWaits = true →
      txAction c b 35 = some (.waitClk c.reqLevel) ∧ txAction c b 36 = some (.waitClk c.reqLevel.opposite)) ∧
    txAction c b c.txLast = some .waitIdle ∧ (∀ i, c.txLast < i → txAction c b i = none)

/-- 43_link_transmit.md R200, R201, R202, R204: a step of the call in progress at a pin phase or at the hold makes the
table's pin action, goes to the next phase and changes nothing else. -/
def Obligations.TransmitPinAndHoldSteps : Prop :=
  ∀ (s : State) (i : Nat), s.txPhase = .at i →
    (txAction s.cfg s.txByte i = some (.pin (.driveLow .clock)) →
      exec (.sendByte s.txByte) s = .next { s with hClk := .low, txPhase := .at (i + 1) }) ∧
    (txAction s.cfg s.txByte i = some (.pin (.release .clock)) →
      exec (.sendByte s.txByte) s = .next { s with hClk := .released, txPhase := .at (i + 1) }) ∧
    (txAction s.cfg s.txByte i = some (.pin (.driveLow .data)) →
      exec (.sendByte s.txByte) s = .next { s with hData := .low, txPhase := .at (i + 1) }) ∧
    (txAction s.cfg s.txByte i = some (.pin (.release .data)) →
      exec (.sendByte s.txByte) s = .next { s with hData := .released, txPhase := .at (i + 1) }) ∧
    (txAction s.cfg s.txByte i = some .hold →
      exec (.sendByte s.txByte) s = .next { s with txPhase := .at (i + 1) })

/-- 43_link_transmit.md R203 (decisions D7, D8, D11): one step of `wait_clk(level)`: the entry takes the snapshot of
the tick; a pass tests the level first, then the timeout; otherwise the wait goes round with nothing changed. That
the entry is a step of its own is log entry 7. -/
def Obligations.WaitClkSeesTimesOutOrGoesRound : Prop :=
  ∀ (l : Level) (s : State),
    (s.waiting = false →
      exec (.waitClk l) s = .next { s with waitT0 := s.tick, waiting := true, ret := .wait .again }) ∧
    (s.waiting = true → s.clk = l →
      exec (.waitClk l) s = .next { s with waiting := false, ret := .wait .seen }) ∧
    (s.waiting = true → s.clk ≠ l → s.cfg.tClkWait ≤ s.elapsed →
      exec (.waitClk l) s = .next { s with waiting := false, ret := .wait .timeout } ∧
      raises (.waitClk l) s = some .clkTimeout) ∧
    (s.waiting = true → s.clk ≠ l → s.elapsed < s.cfg.tClkWait →
      exec (.waitClk l) s = .next { s with ret := .wait .again })

/-- 43_link_transmit.md R206 (decisions D7, D11): one step of `wait_idle()`, in the same form; seen when both lines are
high. -/
def Obligations.WaitIdleSeesTimesOutOrGoesRound : Prop :=
  ∀ s : State,
    (s.waiting = false →
      exec .waitIdle s = .next { s with waitT0 := s.tick, waiting := true, ret := .wait .again }) ∧
    (s.waiting = true → s.clk = .high → s.data = .high →
      exec .waitIdle s = .next { s with waiting := false, ret := .wait .seen }) ∧
    (s.waiting = true → (s.clk = .low ∨ s.data = .low) → s.cfg.tIdle ≤ s.elapsed →
      exec .waitIdle s = .next { s with waiting := false, ret := .wait .timeout } ∧
      raises .waitIdle s = some .idleTimeout) ∧
    (s.waiting = true → (s.clk = .low ∨ s.data = .low) → s.elapsed < s.cfg.tIdle →
      exec .waitIdle s = .next { s with ret := .wait .again })

/-- 43_link_transmit.md R203, R206, R208: inside `send_byte` both outcomes of a wait are treated the same: the call
goes on to its next phase, and after the idle wait it returns; a wait that goes round keeps the phase. That entering a
wait is a step of its own, which takes the snapshot and keeps the phase, is the model's choice (log entry 7). -/
def Obligations.TimeoutsDoNotStopTheSequence : Prop :=
  ∀ (s : State) (i : Nat), s.txPhase = .at i →
    (isWaitPhase s.cfg s.txByte i = true → s.waiting = false →
      exec (.sendByte s.txByte) s = .next { s with waitT0 := s.tick, waiting := true }) ∧
    (∀ l, txAction s.cfg s.txByte i = some (.waitClk l) → s.waiting = true →
      (s.clk = l ∨ s.cfg.tClkWait ≤ s.elapsed) →
      exec (.sendByte s.txByte) s = .next { s with waiting := false, txPhase := .at (i + 1) }) ∧
    (∀ l, txAction s.cfg s.txByte i = some (.waitClk l) → s.waiting = true →
      s.clk ≠ l → s.elapsed < s.cfg.tClkWait → exec (.sendByte s.txByte) s = .next s) ∧
    (txAction s.cfg s.txByte i = some .waitIdle → s.waiting = true →
      (s.clk = .high ∧ s.data = .high ∨ s.cfg.tIdle ≤ s.elapsed) →
      exec (.sendByte s.txByte) s = .next { s with waiting := false, txPhase := .idle, ret := .done }) ∧
    (txAction s.cfg s.txByte i = some .waitIdle → s.waiting = true →
      (s.clk = .low ∨ s.data = .low) → s.elapsed < s.cfg.tIdle → exec (.sendByte s.txByte) s = .next s)

/-- 43_link_transmit.md R200 ("The Receive Buffer is not touched"), 70_reset_and_hazards.md R323: while a transmission
is in progress no step of any agent touches the buffer or the capture unit's state. -/
def Obligations.TransmissionFreezesTheReceivePath : Prop :=
  ∀ s t : State, Inv s → s.txPhase ≠ .idle → step s = .next t →
    t.buf = s.buf ∧ t.wr = s.wr ∧ t.rd = s.rd ∧ t.capSr = s.capSr ∧ t.armed = false ∧ t.capOnline = false ∧
      t.capCnt = 0

/-- 43_link_transmit.md R209: the state when `send_byte` returns. -/
def Obligations.SendByteReturnState : Prop :=
  ∀ s t : State, Inv s → s.txPhase ≠ .idle → step s = .next t → t.txPhase = .idle →
    t.ret = .done ∧ t.hClk = .released ∧ t.hData = .released ∧ t.capOnline = false ∧ t.armed = false ∧
      t.capCnt = 0 ∧ t.queue = s.queue

/-- 43_link_transmit.md R205, R213: whatever the device and the tick do, and whichever waits time out, the pin actions
of a `send_byte(b)` call that has returned are those of `encode(b)`, in order: they depend on `b` and `PARITY_ODD`. -/
def Obligations.SendBytePinsAreTheFrame : Prop :=
  ∀ (s : State) (b : Byte), Inv s → s.txPhase = .idle → s.ackPhase = .idle → s.program = [cmdWord 4#4 b] →
    ∀ (n : Nat) (t : State), Runs n s t → t.txPhase = .idle → t.program = [] →
      pinTrace n s = sendPins s.cfg b

/-- 43_link_transmit.md R200, R208: if the tick advances by the timeouts before every pass, `send_byte` returns within 61
passes, whatever the device does (one step to start, one for each phase, one more for each of at most 23 waits). The
count rests on log entries 6 and 7; under the fairness of R288 alone see `CallsReturnIfTheTickIsFair`. -/
def Obligations.SendByteAlwaysReturns : Prop :=
  ∀ (s : State) (b : Byte) (T : Nat) (ds : List (List (Drive × Drive))),
    Inv s → s.txPhase = .idle → s.ackPhase = .idle → s.program = [cmdWord 4#4 b] →
    s.cfg.tClkWait ≤ T → s.cfg.tIdle ≤ T → T < s.cfg.tickMod → 61 ≤ ds.length → s.schedule = rounds T ds →
    ∃ t, Runs s.schedule.length s t ∧ t.txPhase = .idle ∧ t.program = [] ∧ t.ret = .done ∧
      t.hClk = .released ∧ t.hData = .released ∧ t.capOnline = false ∧ t.armed = false ∧ t.capCnt = 0

/-- 43_link_transmit.md R210 (decisions D3, D7, D27): the steps (g1) to (g7) of `get_ack`, each with its frame. That (g6)
returns false should it find no byte is log entry 18. -/
def Obligations.GetAckSteps : Prop :=
  ∀ s : State, s.txPhase = .idle →
    (s.ackPhase = .idle →
      exec .getAck s = .next { s with wr := 0, rd := 0, ackPhase := .g2, ret := .pending }) ∧
    (s.ackPhase = .g2 →
      exec .getAck s = .next { s with
        hClk := .released, hData := .released, armed := false, capCnt := 0, capOnline := true, ackPhase := .g3 }) ∧
    (s.ackPhase = .g3 → s.armed = false → s.capOnline = true →
      exec .getAck s = .next { s with armed := true, capCnt := 0, ackPhase := .g4 }) ∧
    (s.ackPhase = .g4 → exec .getAck s = .next { s with waitT0 := s.tick, ackPhase := .g5 }) ∧
    (s.ackPhase = .g5 → 1 ≤ s.count → exec .getAck s = .next { s with ackPhase := .g6 }) ∧
    (s.ackPhase = .g5 → s.count = 0 → s.cfg.tAck ≤ s.elapsed →
      exec .getAck s = .next { s with ackPhase := .idle, ret := .bool false } ∧
      raises .getAck s = some .ackTimeout) ∧
    (s.ackPhase = .g5 → s.count = 0 → s.elapsed < s.cfg.tAck → exec .getAck s = .next s) ∧
    (∀ v, s.ackPhase = .g6 → s.wr ≠ s.rd → s.rd < s.cfg.fifoN → readSlot s.buf s.rd = some v →
      exec .getAck s = .next { s with rd := (s.rd + 1) % s.cfg.fifoN, ackPhase := .g7 v }) ∧
    (s.ackPhase = .g6 → s.wr = s.rd →
      exec .getAck s = .next { s with ackPhase := .idle, ret := .bool false } ∧
      raises .getAck s = some .ackTimeout) ∧
    (∀ v, s.ackPhase = .g7 v → v = s.cfg.ackCode →
      exec .getAck s = .next { s with ackPhase := .idle, ret := .bool true } ∧ raises .getAck s = none) ∧
    (∀ v, s.ackPhase = .g7 v → v ≠ s.cfg.ackCode →
      exec .getAck s = .next { s with ackPhase := .idle, ret := .bool false } ∧
      raises .getAck s = some .ackWrong)

/-- 43_link_transmit.md R211: the results of `get_ack` by case, from its wait loop: a byte that is there is taken and
compared, later bytes staying queued; no byte in time gives false and an empty buffer. That (g5) to (g7) are three steps
is log entry 18. -/
def Obligations.GetAckResultByCase : Prop :=
  ∀ (s : State) (rest : List Event), Inv s → s.ackPhase = .g5 →
    (∀ v q, s.queue = v :: q → s.schedule = .foreground :: .foreground :: .foreground :: rest →
      ∃ t, Runs 3 s t ∧ t.ret = .bool (decide (v = s.cfg.ackCode)) ∧ t.queue = q ∧ t.ackPhase = .idle ∧
        t.armed = true ∧ t.capOnline = true ∧ t.schedule = rest) ∧
    (s.queue = [] → s.cfg.tAck ≤ s.elapsed → s.schedule = .foreground :: rest →
      ∃ t, Runs 1 s t ∧ t.ret = .bool false ∧ t.queue = [] ∧ t.ackPhase = .idle ∧
        t.armed = true ∧ t.capOnline = true ∧ t.schedule = rest)

/-- 43_link_transmit.md R210: if the tick advances by `T_ACK` before every pass, `get_ack` returns an answer within seven
passes, whatever the device does, with the receive path online and armed. The count rests on log entry 18; under the
fairness of R288 alone see `CallsReturnIfTheTickIsFair`. -/
def Obligations.GetAckAlwaysReturns : Prop :=
  ∀ (s : State) (T : Nat) (ds : List (List (Drive × Drive))),
    Inv s → s.txPhase = .idle → s.ackPhase = .idle → s.program = [0x500#12] →
    s.cfg.tAck ≤ T → T < s.cfg.tickMod → 7 ≤ ds.length → s.schedule = rounds T ds →
    ∃ t r, Runs s.schedule.length s t ∧ t.txPhase = .idle ∧ t.ackPhase = .idle ∧ t.program = [] ∧
      t.ret = .bool r ∧ t.armed = true ∧ t.capOnline = true

/-- 30_encoding.md R98, R100 (decision D20): the result word of each command when it returns, and none while a blocking
call is in progress. Where the word stands is the model's choice (log entry 16). -/
def Obligations.ResultWordsFollowTheTable : Prop :=
  (∀ s : State, ∃ t, exec .armReceive s = .next t ∧ t.ret.word = some 0x100#9) ∧
  (∀ (n : Byte) (s : State), ∃ t, exec (.bytesAvailable n) s = .next t ∧
    t.ret.word = some (if n.toNat ≤ s.count then 0x101#9 else 0x100#9)) ∧
  (∀ (v : Byte) (s : State), s.wr ≠ s.rd → s.rd < s.cfg.fifoN → readSlot s.buf s.rd = some v →
    ∃ t w, exec .readByte s = .next t ∧ t.ret.word = some w ∧ w.getLsbD 8 = true ∧ w.extractLsb' 0 8 = v) ∧
  (∀ s : State, s.wr = s.rd → ∃ t, exec .readByte s = .next t ∧ t.ret.word = some 0#9) ∧
  (∀ (b : Byte) (s : State), s.txPhase = .idle → s.ackPhase = .idle →
    ∃ t, exec (.sendByte b) s = .next t ∧ t.ret.word = none) ∧
  (∀ s t : State, Inv s → s.txPhase ≠ .idle → step s = .next t →
    t.txPhase = .idle ∧ t.ret.word = some 0x100#9 ∨ t.txPhase ≠ .idle ∧ t.ret = s.ret) ∧
  (∀ s : State, s.txPhase = .idle → s.ackPhase = .idle → ∃ t, exec .getAck s = .next t ∧ t.ret.word = none) ∧
  (∀ s t : State, s.txPhase = .idle → s.ackPhase ≠ .idle → exec .getAck s = .next t →
    t.ackPhase = .idle ∧ (t.ret.word = some 0x101#9 ∧ s.ackPhase = .g7 s.cfg.ackCode ∨
      t.ret.word = some 0x100#9 ∧ s.ackPhase ≠ .g7 s.cfg.ackCode) ∨
    t.ackPhase ≠ .idle ∧ t.ret = s.ret)

/-- 93_implementation_defined.md U12, 10_state.md R40: a blocking call is refused while another is in progress (log entry
11); a phase above `TX_LAST` faults (log entry 20). -/
def Obligations.SecondBlockingCallRefused : Prop :=
  (∀ (b : Byte) (s : State), s.txPhase = .idle → s.ackPhase ≠ .idle →
    exec (.sendByte b) s = .refused .foregroundBusy) ∧
  (∀ (b : Byte) (s : State) (i : Nat), s.txPhase = .at i → b ≠ s.txByte →
    exec (.sendByte b) s = .refused .foregroundBusy) ∧
  (∀ (s : State) (i : Nat), s.txPhase = .at i → exec .getAck s = .refused .foregroundBusy) ∧
  (∀ (s : State) (i : Nat), s.txPhase = .at i → s.cfg.txLast < i →
    exec (.sendByte s.txByte) s = .fault (.txPhaseOutOfTable i))

/-- 60_exceptions.md R270 (decision D21): the error kinds, each with the operations that raise it and its cause: if an
operation raises a kind, it is one the table gives it, and the cause holds. `raises` is the model's (log entry 15). -/
def Obligations.ErrorKindsHaveTheirCause : Prop :=
  ∀ (i : Instr) (s : State) (k : ErrorKind), raises i s = some k →
    (k = .framingError → ∃ raw : RawFrame, (raw.getLsbD 0 = true ∨ raw.getLsbD 10 = false) ∧
      (i = .validate raw ∨ i = .onCaptureComplete raw ∨ ∃ x, i = .captureBit x ∧ raw = s.sampled x ∧ s.capCnt.val = 10)) ∧
    (k = .parityError → ∃ raw : RawFrame, raw.getLsbD 0 = false ∧ raw.getLsbD 10 = true ∧
      raw.getLsbD 9 ≠ (xor8 (raw.extractLsb' 1 8) ^^ s.cfg.parityOdd) ∧
      (i = .validate raw ∨ i = .onCaptureComplete raw ∨ ∃ x, i = .captureBit x ∧ raw = s.sampled x ∧ s.capCnt.val = 10)) ∧
    (k = .captureError → i = .onCaptureError) ∧
    (k = .overflow → (s.wr + 1) % s.cfg.fifoN = s.rd ∧
      ((∃ b, i = .push b) ∨ (∃ raw, i = .onCaptureComplete raw) ∨ ∃ x, i = .captureBit x)) ∧
    (k = .clkTimeout → s.waiting = true ∧ s.cfg.tClkWait ≤ s.elapsed ∧
      ((∃ l, i = .waitClk l ∧ s.clk ≠ l) ∨ ∃ b p l, i = .sendByte b ∧ s.txPhase = .at p ∧
        txAction s.cfg s.txByte p = some (.waitClk l) ∧ s.clk ≠ l)) ∧
    (k = .idleTimeout → s.waiting = true ∧ s.cfg.tIdle ≤ s.elapsed ∧ ¬(s.clk = .high ∧ s.data = .high) ∧
      (i = .waitIdle ∨ ∃ b p, i = .sendByte b ∧ s.txPhase = .at p ∧ txAction s.cfg s.txByte p = some .waitIdle)) ∧
    (k = .ackTimeout → i = .getAck ∧
      (s.ackPhase = .g5 ∧ s.count = 0 ∧ s.cfg.tAck ≤ s.elapsed ∨ s.ackPhase = .g6 ∧ s.wr = s.rd)) ∧
    (k = .ackWrong → i = .getAck ∧ ∃ v, s.ackPhase = .g7 v ∧ v ≠ s.cfg.ackCode) ∧
    (k = .noData → i = .readByte ∧ s.wr = s.rd)

/-- 60_exceptions.md R286, 41_receive_buffer.md R150: what the foreground's command words can select runs in the
foreground context, and no command word selects `push` or a handler. -/
def Obligations.CommandsRunInTheForeground : Prop :=
  ∀ (w : CmdWord) (i : Instr), decodeCmd w = .ok i →
    i.mayRunIn .foreground = true ∧ (∀ b, i ≠ .push b) ∧ (∀ raw, i ≠ .onCaptureComplete raw) ∧
      i ≠ .onCaptureError ∧ ∀ x, i ≠ .captureBit x

/-- 60_exceptions.md R288 (decision D8): the three bounded waits end if the tick agent is fair, whatever the device and the
capture unit do between the passes and however little the tick advances in each, and only then for certain: with no
step of the tick or the device they go round for ever. The passes are those of the call in progress; that between two
of them the tick does not skip the timed-out range of a wait is R214's condition across a wrap (log entry 29). -/
def Obligations.CallsReturnIfTheTickIsFair : Prop :=
  (∀ (s : State) (gaps : Nat → List Event),
    Inv s → s.call ≠ none → OthersOnly gaps → TickFair gaps → PolledInTime s.cfg gaps →
    ∃ n t, Runs (passes gaps n).length { s with schedule := passes gaps n } t ∧ t.call = none ∧ t.schedule = [] ∧
      (s.txPhase ≠ .idle → t.ret = .done) ∧
      (s.txPhase = .idle → (∃ b, t.ret = .bool b) ∧ t.armed = true ∧ t.capOnline = true)) ∧
  (∀ (s : State) (n : Nat), Inv s → StillWaiting s →
    Runs n { s with schedule := List.replicate n .foreground } { s with schedule := [] })
end

