-- ==== Sys2Proof/Laws/State.lean ====
section
/-! SUPPORT. One lemma per field per update of the state, so that no proof unfolds a record update. -/

namespace Sys2Proof.Machine

@[simp] theorem State.teardown_cfg (s : State) : s.teardown.cfg = s.cfg := rfl
@[simp] theorem State.teardown_buf (s : State) : s.teardown.buf = s.buf := rfl
@[simp] theorem State.teardown_wr (s : State) : s.teardown.wr = s.wr := rfl
@[simp] theorem State.teardown_rd (s : State) : s.teardown.rd = s.rd := rfl
@[simp] theorem State.teardown_armed (s : State) : s.teardown.armed = false := rfl
@[simp] theorem State.teardown_capOnline (s : State) : s.teardown.capOnline = false := rfl
@[simp] theorem State.teardown_capCnt (s : State) : s.teardown.capCnt = 0 := rfl
@[simp] theorem State.teardown_capSr (s : State) : s.teardown.capSr = s.capSr := rfl
@[simp] theorem State.teardown_txPhase (s : State) : s.teardown.txPhase = s.txPhase := rfl
@[simp] theorem State.teardown_txByte (s : State) : s.teardown.txByte = s.txByte := rfl
@[simp] theorem State.teardown_waitT0 (s : State) : s.teardown.waitT0 = s.waitT0 := rfl
@[simp] theorem State.teardown_hClk (s : State) : s.teardown.hClk = s.hClk := rfl
@[simp] theorem State.teardown_hData (s : State) : s.teardown.hData = s.hData := rfl
@[simp] theorem State.teardown_dClk (s : State) : s.teardown.dClk = s.dClk := rfl
@[simp] theorem State.teardown_dData (s : State) : s.teardown.dData = s.dData := rfl
@[simp] theorem State.teardown_tick (s : State) : s.teardown.tick = s.tick := rfl
@[simp] theorem State.teardown_waiting (s : State) : s.teardown.waiting = s.waiting := rfl
@[simp] theorem State.teardown_ackPhase (s : State) : s.teardown.ackPhase = s.ackPhase := rfl
@[simp] theorem State.teardown_ret (s : State) : s.teardown.ret = s.ret := rfl
@[simp] theorem State.teardown_program (s : State) : s.teardown.program = s.program := rfl
@[simp] theorem State.teardown_schedule (s : State) : s.teardown.schedule = s.schedule := rfl

@[simp] theorem State.restart_cfg (s : State) : s.restart.cfg = s.cfg := rfl
@[simp] theorem State.restart_buf (s : State) : s.restart.buf = s.buf := rfl
@[simp] theorem State.restart_wr (s : State) : s.restart.wr = s.wr := rfl
@[simp] theorem State.restart_rd (s : State) : s.restart.rd = s.rd := rfl
@[simp] theorem State.restart_armed (s : State) : s.restart.armed = false := rfl
@[simp] theorem State.restart_capOnline (s : State) : s.restart.capOnline = true := rfl
@[simp] theorem State.restart_capCnt (s : State) : s.restart.capCnt = 0 := rfl
@[simp] theorem State.restart_capSr (s : State) : s.restart.capSr = s.capSr := rfl
@[simp] theorem State.restart_txPhase (s : State) : s.restart.txPhase = s.txPhase := rfl
@[simp] theorem State.restart_txByte (s : State) : s.restart.txByte = s.txByte := rfl
@[simp] theorem State.restart_waitT0 (s : State) : s.restart.waitT0 = s.waitT0 := rfl
@[simp] theorem State.restart_hClk (s : State) : s.restart.hClk = .released := rfl
@[simp] theorem State.restart_hData (s : State) : s.restart.hData = .released := rfl
@[simp] theorem State.restart_dClk (s : State) : s.restart.dClk = s.dClk := rfl
@[simp] theorem State.restart_dData (s : State) : s.restart.dData = s.dData := rfl
@[simp] theorem State.restart_tick (s : State) : s.restart.tick = s.tick := rfl
@[simp] theorem State.restart_waiting (s : State) : s.restart.waiting = s.waiting := rfl
@[simp] theorem State.restart_ackPhase (s : State) : s.restart.ackPhase = s.ackPhase := rfl
@[simp] theorem State.restart_ret (s : State) : s.restart.ret = s.ret := rfl
@[simp] theorem State.restart_program (s : State) : s.restart.program = s.program := rfl
@[simp] theorem State.restart_schedule (s : State) : s.restart.schedule = s.schedule := rfl

@[simp] theorem State.emptyBuffer_cfg (s : State) : s.emptyBuffer.cfg = s.cfg := rfl
@[simp] theorem State.emptyBuffer_buf (s : State) : s.emptyBuffer.buf = s.buf := rfl
@[simp] theorem State.emptyBuffer_wr (s : State) : s.emptyBuffer.wr = 0 := rfl
@[simp] theorem State.emptyBuffer_rd (s : State) : s.emptyBuffer.rd = 0 := rfl
@[simp] theorem State.emptyBuffer_armed (s : State) : s.emptyBuffer.armed = s.armed := rfl
@[simp] theorem State.emptyBuffer_capOnline (s : State) : s.emptyBuffer.capOnline = s.capOnline := rfl
@[simp] theorem State.emptyBuffer_capCnt (s : State) : s.emptyBuffer.capCnt = s.capCnt := rfl
@[simp] theorem State.emptyBuffer_capSr (s : State) : s.emptyBuffer.capSr = s.capSr := rfl
@[simp] theorem State.emptyBuffer_txPhase (s : State) : s.emptyBuffer.txPhase = s.txPhase := rfl
@[simp] theorem State.emptyBuffer_txByte (s : State) : s.emptyBuffer.txByte = s.txByte := rfl
@[simp] theorem State.emptyBuffer_waitT0 (s : State) : s.emptyBuffer.waitT0 = s.waitT0 := rfl
@[simp] theorem State.emptyBuffer_hClk (s : State) : s.emptyBuffer.hClk = s.hClk := rfl
@[simp] theorem State.emptyBuffer_hData (s : State) : s.emptyBuffer.hData = s.hData := rfl
@[simp] theorem State.emptyBuffer_dClk (s : State) : s.emptyBuffer.dClk = s.dClk := rfl
@[simp] theorem State.emptyBuffer_dData (s : State) : s.emptyBuffer.dData = s.dData := rfl
@[simp] theorem State.emptyBuffer_tick (s : State) : s.emptyBuffer.tick = s.tick := rfl
@[simp] theorem State.emptyBuffer_waiting (s : State) : s.emptyBuffer.waiting = s.waiting := rfl
@[simp] theorem State.emptyBuffer_ackPhase (s : State) : s.emptyBuffer.ackPhase = s.ackPhase := rfl
@[simp] theorem State.emptyBuffer_ret (s : State) : s.emptyBuffer.ret = s.ret := rfl
@[simp] theorem State.emptyBuffer_program (s : State) : s.emptyBuffer.program = s.program := rfl
@[simp] theorem State.emptyBuffer_schedule (s : State) : s.emptyBuffer.schedule = s.schedule := rfl

@[simp] theorem State.txNext_cfg (s : State) (i : Nat) : (s.txNext i).cfg = s.cfg := rfl
@[simp] theorem State.txNext_buf (s : State) (i : Nat) : (s.txNext i).buf = s.buf := rfl
@[simp] theorem State.txNext_wr (s : State) (i : Nat) : (s.txNext i).wr = s.wr := rfl
@[simp] theorem State.txNext_rd (s : State) (i : Nat) : (s.txNext i).rd = s.rd := rfl
@[simp] theorem State.txNext_armed (s : State) (i : Nat) : (s.txNext i).armed = s.armed := rfl
@[simp] theorem State.txNext_capOnline (s : State) (i : Nat) : (s.txNext i).capOnline = s.capOnline := rfl
@[simp] theorem State.txNext_capCnt (s : State) (i : Nat) : (s.txNext i).capCnt = s.capCnt := rfl
@[simp] theorem State.txNext_capSr (s : State) (i : Nat) : (s.txNext i).capSr = s.capSr := rfl
@[simp] theorem State.txNext_txPhase (s : State) (i : Nat) : (s.txNext i).txPhase = .at (i + 1) := rfl
@[simp] theorem State.txNext_txByte (s : State) (i : Nat) : (s.txNext i).txByte = s.txByte := rfl
@[simp] theorem State.txNext_waitT0 (s : State) (i : Nat) : (s.txNext i).waitT0 = s.waitT0 := rfl
@[simp] theorem State.txNext_hClk (s : State) (i : Nat) : (s.txNext i).hClk = s.hClk := rfl
@[simp] theorem State.txNext_hData (s : State) (i : Nat) : (s.txNext i).hData = s.hData := rfl
@[simp] theorem State.txNext_dClk (s : State) (i : Nat) : (s.txNext i).dClk = s.dClk := rfl
@[simp] theorem State.txNext_dData (s : State) (i : Nat) : (s.txNext i).dData = s.dData := rfl
@[simp] theorem State.txNext_tick (s : State) (i : Nat) : (s.txNext i).tick = s.tick := rfl
@[simp] theorem State.txNext_waiting (s : State) (i : Nat) : (s.txNext i).waiting = s.waiting := rfl
@[simp] theorem State.txNext_ackPhase (s : State) (i : Nat) : (s.txNext i).ackPhase = s.ackPhase := rfl
@[simp] theorem State.txNext_ret (s : State) (i : Nat) : (s.txNext i).ret = s.ret := rfl
@[simp] theorem State.txNext_program (s : State) (i : Nat) : (s.txNext i).program = s.program := rfl
@[simp] theorem State.txNext_schedule (s : State) (i : Nat) : (s.txNext i).schedule = s.schedule := rfl

@[simp] theorem State.txReturn_cfg (s : State) : s.txReturn.cfg = s.cfg := rfl
@[simp] theorem State.txReturn_buf (s : State) : s.txReturn.buf = s.buf := rfl
@[simp] theorem State.txReturn_wr (s : State) : s.txReturn.wr = s.wr := rfl
@[simp] theorem State.txReturn_rd (s : State) : s.txReturn.rd = s.rd := rfl
@[simp] theorem State.txReturn_armed (s : State) : s.txReturn.armed = s.armed := rfl
@[simp] theorem State.txReturn_capOnline (s : State) : s.txReturn.capOnline = s.capOnline := rfl
@[simp] theorem State.txReturn_capCnt (s : State) : s.txReturn.capCnt = s.capCnt := rfl
@[simp] theorem State.txReturn_capSr (s : State) : s.txReturn.capSr = s.capSr := rfl
@[simp] theorem State.txReturn_txPhase (s : State) : s.txReturn.txPhase = .idle := rfl
@[simp] theorem State.txReturn_txByte (s : State) : s.txReturn.txByte = s.txByte := rfl
@[simp] theorem State.txReturn_waitT0 (s : State) : s.txReturn.waitT0 = s.waitT0 := rfl
@[simp] theorem State.txReturn_hClk (s : State) : s.txReturn.hClk = s.hClk := rfl
@[simp] theorem State.txReturn_hData (s : State) : s.txReturn.hData = s.hData := rfl
@[simp] theorem State.txReturn_dClk (s : State) : s.txReturn.dClk = s.dClk := rfl
@[simp] theorem State.txReturn_dData (s : State) : s.txReturn.dData = s.dData := rfl
@[simp] theorem State.txReturn_tick (s : State) : s.txReturn.tick = s.tick := rfl
@[simp] theorem State.txReturn_waiting (s : State) : s.txReturn.waiting = s.waiting := rfl
@[simp] theorem State.txReturn_ackPhase (s : State) : s.txReturn.ackPhase = s.ackPhase := rfl
@[simp] theorem State.txReturn_ret (s : State) : s.txReturn.ret = .done := rfl
@[simp] theorem State.txReturn_program (s : State) : s.txReturn.program = s.program := rfl
@[simp] theorem State.txReturn_schedule (s : State) : s.txReturn.schedule = s.schedule := rfl

@[simp] theorem State.ackReturn_cfg (s : State) (b : Bool) : (s.ackReturn b).cfg = s.cfg := rfl
@[simp] theorem State.ackReturn_buf (s : State) (b : Bool) : (s.ackReturn b).buf = s.buf := rfl
@[simp] theorem State.ackReturn_wr (s : State) (b : Bool) : (s.ackReturn b).wr = s.wr := rfl
@[simp] theorem State.ackReturn_rd (s : State) (b : Bool) : (s.ackReturn b).rd = s.rd := rfl
@[simp] theorem State.ackReturn_armed (s : State) (b : Bool) : (s.ackReturn b).armed = s.armed := rfl
@[simp] theorem State.ackReturn_capOnline (s : State) (b : Bool) : (s.ackReturn b).capOnline = s.capOnline := rfl
@[simp] theorem State.ackReturn_capCnt (s : State) (b : Bool) : (s.ackReturn b).capCnt = s.capCnt := rfl
@[simp] theorem State.ackReturn_capSr (s : State) (b : Bool) : (s.ackReturn b).capSr = s.capSr := rfl
@[simp] theorem State.ackReturn_txPhase (s : State) (b : Bool) : (s.ackReturn b).txPhase = s.txPhase := rfl
@[simp] theorem State.ackReturn_txByte (s : State) (b : Bool) : (s.ackReturn b).txByte = s.txByte := rfl
@[simp] theorem State.ackReturn_waitT0 (s : State) (b : Bool) : (s.ackReturn b).waitT0 = s.waitT0 := rfl
@[simp] theorem State.ackReturn_hClk (s : State) (b : Bool) : (s.ackReturn b).hClk = s.hClk := rfl
@[simp] theorem State.ackReturn_hData (s : State) (b : Bool) : (s.ackReturn b).hData = s.hData := rfl
@[simp] theorem State.ackReturn_dClk (s : State) (b : Bool) : (s.ackReturn b).dClk = s.dClk := rfl
@[simp] theorem State.ackReturn_dData (s : State) (b : Bool) : (s.ackReturn b).dData = s.dData := rfl
@[simp] theorem State.ackReturn_tick (s : State) (b : Bool) : (s.ackReturn b).tick = s.tick := rfl
@[simp] theorem State.ackReturn_waiting (s : State) (b : Bool) : (s.ackReturn b).waiting = s.waiting := rfl
@[simp] theorem State.ackReturn_ackPhase (s : State) (b : Bool) : (s.ackReturn b).ackPhase = .idle := rfl
@[simp] theorem State.ackReturn_ret (s : State) (b : Bool) : (s.ackReturn b).ret = .bool b := rfl
@[simp] theorem State.ackReturn_program (s : State) (b : Bool) : (s.ackReturn b).program = s.program := rfl
@[simp] theorem State.ackReturn_schedule (s : State) (b : Bool) : (s.ackReturn b).schedule = s.schedule := rfl

@[simp] theorem State.refuseCommand_cfg (s : State) : s.refuseCommand.cfg = s.cfg := rfl
@[simp] theorem State.refuseCommand_buf (s : State) : s.refuseCommand.buf = s.buf := rfl
@[simp] theorem State.refuseCommand_wr (s : State) : s.refuseCommand.wr = s.wr := rfl
@[simp] theorem State.refuseCommand_rd (s : State) : s.refuseCommand.rd = s.rd := rfl
@[simp] theorem State.refuseCommand_armed (s : State) : s.refuseCommand.armed = s.armed := rfl
@[simp] theorem State.refuseCommand_capOnline (s : State) : s.refuseCommand.capOnline = s.capOnline := rfl
@[simp] theorem State.refuseCommand_capCnt (s : State) : s.refuseCommand.capCnt = s.capCnt := rfl
@[simp] theorem State.refuseCommand_capSr (s : State) : s.refuseCommand.capSr = s.capSr := rfl
@[simp] theorem State.refuseCommand_txPhase (s : State) : s.refuseCommand.txPhase = s.txPhase := rfl
@[simp] theorem State.refuseCommand_txByte (s : State) : s.refuseCommand.txByte = s.txByte := rfl
@[simp] theorem State.refuseCommand_waitT0 (s : State) : s.refuseCommand.waitT0 = s.waitT0 := rfl
@[simp] theorem State.refuseCommand_hClk (s : State) : s.refuseCommand.hClk = s.hClk := rfl
@[simp] theorem State.refuseCommand_hData (s : State) : s.refuseCommand.hData = s.hData := rfl
@[simp] theorem State.refuseCommand_dClk (s : State) : s.refuseCommand.dClk = s.dClk := rfl
@[simp] theorem State.refuseCommand_dData (s : State) : s.refuseCommand.dData = s.dData := rfl
@[simp] theorem State.refuseCommand_tick (s : State) : s.refuseCommand.tick = s.tick := rfl
@[simp] theorem State.refuseCommand_waiting (s : State) : s.refuseCommand.waiting = s.waiting := rfl
@[simp] theorem State.refuseCommand_ackPhase (s : State) : s.refuseCommand.ackPhase = s.ackPhase := rfl
@[simp] theorem State.refuseCommand_ret (s : State) : s.refuseCommand.ret = .refused := rfl
@[simp] theorem State.refuseCommand_program (s : State) : s.refuseCommand.program = s.program := rfl
@[simp] theorem State.refuseCommand_schedule (s : State) : s.refuseCommand.schedule = s.schedule := rfl

@[simp] theorem State.advanceTick_cfg (s : State) (k : Nat) : (s.advanceTick k).cfg = s.cfg := rfl
@[simp] theorem State.advanceTick_buf (s : State) (k : Nat) : (s.advanceTick k).buf = s.buf := rfl
@[simp] theorem State.advanceTick_wr (s : State) (k : Nat) : (s.advanceTick k).wr = s.wr := rfl
@[simp] theorem State.advanceTick_rd (s : State) (k : Nat) : (s.advanceTick k).rd = s.rd := rfl
@[simp] theorem State.advanceTick_armed (s : State) (k : Nat) : (s.advanceTick k).armed = s.armed := rfl
@[simp] theorem State.advanceTick_capOnline (s : State) (k : Nat) : (s.advanceTick k).capOnline = s.capOnline := rfl
@[simp] theorem State.advanceTick_capCnt (s : State) (k : Nat) : (s.advanceTick k).capCnt = s.capCnt := rfl
@[simp] theorem State.advanceTick_capSr (s : State) (k : Nat) : (s.advanceTick k).capSr = s.capSr := rfl
@[simp] theorem State.advanceTick_txPhase (s : State) (k : Nat) : (s.advanceTick k).txPhase = s.txPhase := rfl
@[simp] theorem State.advanceTick_txByte (s : State) (k : Nat) : (s.advanceTick k).txByte = s.txByte := rfl
@[simp] theorem State.advanceTick_waitT0 (s : State) (k : Nat) : (s.advanceTick k).waitT0 = s.waitT0 := rfl
@[simp] theorem State.advanceTick_hClk (s : State) (k : Nat) : (s.advanceTick k).hClk = s.hClk := rfl
@[simp] theorem State.advanceTick_hData (s : State) (k : Nat) : (s.advanceTick k).hData = s.hData := rfl
@[simp] theorem State.advanceTick_dClk (s : State) (k : Nat) : (s.advanceTick k).dClk = s.dClk := rfl
@[simp] theorem State.advanceTick_dData (s : State) (k : Nat) : (s.advanceTick k).dData = s.dData := rfl
@[simp] theorem State.advanceTick_tick (s : State) (k : Nat) : (s.advanceTick k).tick = (s.tick + k) % s.cfg.tickMod := rfl
@[simp] theorem State.advanceTick_waiting (s : State) (k : Nat) : (s.advanceTick k).waiting = s.waiting := rfl
@[simp] theorem State.advanceTick_ackPhase (s : State) (k : Nat) : (s.advanceTick k).ackPhase = s.ackPhase := rfl
@[simp] theorem State.advanceTick_ret (s : State) (k : Nat) : (s.advanceTick k).ret = s.ret := rfl
@[simp] theorem State.advanceTick_program (s : State) (k : Nat) : (s.advanceTick k).program = s.program := rfl
@[simp] theorem State.advanceTick_schedule (s : State) (k : Nat) : (s.advanceTick k).schedule = s.schedule := rfl

@[simp] theorem State.pin_cfg (s : State) (a : PinAction) : (s.pin a).cfg = s.cfg := by rcases a with ⟨⟨⟩⟩ | ⟨⟨⟩⟩ <;> rfl
@[simp] theorem State.pin_buf (s : State) (a : PinAction) : (s.pin a).buf = s.buf := by rcases a with ⟨⟨⟩⟩ | ⟨⟨⟩⟩ <;> rfl
@[simp] theorem State.pin_wr (s : State) (a : PinAction) : (s.pin a).wr = s.wr := by rcases a with ⟨⟨⟩⟩ | ⟨⟨⟩⟩ <;> rfl
@[simp] theorem State.pin_rd (s : State) (a : PinAction) : (s.pin a).rd = s.rd := by rcases a with ⟨⟨⟩⟩ | ⟨⟨⟩⟩ <;> rfl
@[simp] theorem State.pin_armed (s : State) (a : PinAction) : (s.pin a).armed = s.armed := by rcases a with ⟨⟨⟩⟩ | ⟨⟨⟩⟩ <;> rfl
@[simp] theorem State.pin_capOnline (s : State) (a : PinAction) : (s.pin a).capOnline = s.capOnline := by rcases a with ⟨⟨⟩⟩ | ⟨⟨⟩⟩ <;> rfl
@[simp] theorem State.pin_capCnt (s : State) (a : PinAction) : (s.pin a).capCnt = s.capCnt := by rcases a with ⟨⟨⟩⟩ | ⟨⟨⟩⟩ <;> rfl
@[simp] theorem State.pin_capSr (s : State) (a : PinAction) : (s.pin a).capSr = s.capSr := by rcases a with ⟨⟨⟩⟩ | ⟨⟨⟩⟩ <;> rfl
@[simp] theorem State.pin_txPhase (s : State) (a : PinAction) : (s.pin a).txPhase = s.txPhase := by rcases a with ⟨⟨⟩⟩ | ⟨⟨⟩⟩ <;> rfl
@[simp] theorem State.pin_txByte (s : State) (a : PinAction) : (s.pin a).txByte = s.txByte := by rcases a with ⟨⟨⟩⟩ | ⟨⟨⟩⟩ <;> rfl
@[simp] theorem State.pin_waitT0 (s : State) (a : PinAction) : (s.pin a).waitT0 = s.waitT0 := by rcases a with ⟨⟨⟩⟩ | ⟨⟨⟩⟩ <;> rfl
@[simp] theorem State.pin_dClk (s : State) (a : PinAction) : (s.pin a).dClk = s.dClk := by rcases a with ⟨⟨⟩⟩ | ⟨⟨⟩⟩ <;> rfl
@[simp] theorem State.pin_dData (s : State) (a : PinAction) : (s.pin a).dData = s.dData := by rcases a with ⟨⟨⟩⟩ | ⟨⟨⟩⟩ <;> rfl
@[simp] theorem State.pin_tick (s : State) (a : PinAction) : (s.pin a).tick = s.tick := by rcases a with ⟨⟨⟩⟩ | ⟨⟨⟩⟩ <;> rfl
@[simp] theorem State.pin_waiting (s : State) (a : PinAction) : (s.pin a).waiting = s.waiting := by rcases a with ⟨⟨⟩⟩ | ⟨⟨⟩⟩ <;> rfl
@[simp] theorem State.pin_ackPhase (s : State) (a : PinAction) : (s.pin a).ackPhase = s.ackPhase := by rcases a with ⟨⟨⟩⟩ | ⟨⟨⟩⟩ <;> rfl
@[simp] theorem State.pin_ret (s : State) (a : PinAction) : (s.pin a).ret = s.ret := by rcases a with ⟨⟨⟩⟩ | ⟨⟨⟩⟩ <;> rfl
@[simp] theorem State.pin_program (s : State) (a : PinAction) : (s.pin a).program = s.program := by rcases a with ⟨⟨⟩⟩ | ⟨⟨⟩⟩ <;> rfl
@[simp] theorem State.pin_schedule (s : State) (a : PinAction) : (s.pin a).schedule = s.schedule := by rcases a with ⟨⟨⟩⟩ | ⟨⟨⟩⟩ <;> rfl

@[simp] theorem State.bringOnline_cfg (s : State) : s.bringOnline.cfg = s.cfg := by unfold State.bringOnline; split <;> rfl
@[simp] theorem State.bringOnline_buf (s : State) : s.bringOnline.buf = s.buf := by unfold State.bringOnline; split <;> rfl
@[simp] theorem State.bringOnline_wr (s : State) : s.bringOnline.wr = s.wr := by unfold State.bringOnline; split <;> rfl
@[simp] theorem State.bringOnline_rd (s : State) : s.bringOnline.rd = s.rd := by unfold State.bringOnline; split <;> rfl
@[simp] theorem State.bringOnline_armed (s : State) : s.bringOnline.armed = s.armed := by unfold State.bringOnline; split <;> rfl
@[simp] theorem State.bringOnline_capCnt (s : State) : s.bringOnline.capCnt = s.capCnt := by unfold State.bringOnline; split <;> rfl
@[simp] theorem State.bringOnline_capSr (s : State) : s.bringOnline.capSr = s.capSr := by unfold State.bringOnline; split <;> rfl
@[simp] theorem State.bringOnline_txPhase (s : State) : s.bringOnline.txPhase = s.txPhase := by unfold State.bringOnline; split <;> rfl
@[simp] theorem State.bringOnline_txByte (s : State) : s.bringOnline.txByte = s.txByte := by unfold State.bringOnline; split <;> rfl
@[simp] theorem State.bringOnline_waitT0 (s : State) : s.bringOnline.waitT0 = s.waitT0 := by unfold State.bringOnline; split <;> rfl
@[simp] theorem State.bringOnline_dClk (s : State) : s.bringOnline.dClk = s.dClk := by unfold State.bringOnline; split <;> rfl
@[simp] theorem State.bringOnline_dData (s : State) : s.bringOnline.dData = s.dData := by unfold State.bringOnline; split <;> rfl
@[simp] theorem State.bringOnline_tick (s : State) : s.bringOnline.tick = s.tick := by unfold State.bringOnline; split <;> rfl
@[simp] theorem State.bringOnline_waiting (s : State) : s.bringOnline.waiting = s.waiting := by unfold State.bringOnline; split <;> rfl
@[simp] theorem State.bringOnline_ackPhase (s : State) : s.bringOnline.ackPhase = s.ackPhase := by unfold State.bringOnline; split <;> rfl
@[simp] theorem State.bringOnline_ret (s : State) : s.bringOnline.ret = s.ret := by unfold State.bringOnline; split <;> rfl
@[simp] theorem State.bringOnline_program (s : State) : s.bringOnline.program = s.program := by unfold State.bringOnline; split <;> rfl
@[simp] theorem State.bringOnline_schedule (s : State) : s.bringOnline.schedule = s.schedule := by unfold State.bringOnline; split <;> rfl
@[simp] theorem State.bringOnline_capOnline (s : State) : s.bringOnline.capOnline = true := by unfold State.bringOnline; split <;> simp_all

@[simp] theorem State.arm_cfg (s : State) : s.arm.cfg = s.cfg := by unfold State.arm; split <;> simp
@[simp] theorem State.arm_buf (s : State) : s.arm.buf = s.buf := by unfold State.arm; split <;> simp
@[simp] theorem State.arm_wr (s : State) : s.arm.wr = s.wr := by unfold State.arm; split <;> simp
@[simp] theorem State.arm_rd (s : State) : s.arm.rd = s.rd := by unfold State.arm; split <;> simp
@[simp] theorem State.arm_capSr (s : State) : s.arm.capSr = s.capSr := by unfold State.arm; split <;> simp
@[simp] theorem State.arm_txPhase (s : State) : s.arm.txPhase = s.txPhase := by unfold State.arm; split <;> simp
@[simp] theorem State.arm_txByte (s : State) : s.arm.txByte = s.txByte := by unfold State.arm; split <;> simp
@[simp] theorem State.arm_waitT0 (s : State) : s.arm.waitT0 = s.waitT0 := by unfold State.arm; split <;> simp
@[simp] theorem State.arm_dClk (s : State) : s.arm.dClk = s.dClk := by unfold State.arm; split <;> simp
@[simp] theorem State.arm_dData (s : State) : s.arm.dData = s.dData := by unfold State.arm; split <;> simp
@[simp] theorem State.arm_tick (s : State) : s.arm.tick = s.tick := by unfold State.arm; split <;> simp
@[simp] theorem State.arm_waiting (s : State) : s.arm.waiting = s.waiting := by unfold State.arm; split <;> simp
@[simp] theorem State.arm_ackPhase (s : State) : s.arm.ackPhase = s.ackPhase := by unfold State.arm; split <;> simp
@[simp] theorem State.arm_ret (s : State) : s.arm.ret = s.ret := by unfold State.arm; split <;> simp
@[simp] theorem State.arm_program (s : State) : s.arm.program = s.program := by unfold State.arm; split <;> simp
@[simp] theorem State.arm_schedule (s : State) : s.arm.schedule = s.schedule := by unfold State.arm; split <;> simp
@[simp] theorem State.arm_armed (s : State) : s.arm.armed = true := by unfold State.arm; split <;> simp_all

@[simp] theorem State.rearm_cfg (s : State) : s.rearm.cfg = s.cfg := by simp [State.rearm]
@[simp] theorem State.rearm_buf (s : State) : s.rearm.buf = s.buf := by simp [State.rearm]
@[simp] theorem State.rearm_wr (s : State) : s.rearm.wr = s.wr := by simp [State.rearm]
@[simp] theorem State.rearm_rd (s : State) : s.rearm.rd = s.rd := by simp [State.rearm]
@[simp] theorem State.rearm_capSr (s : State) : s.rearm.capSr = s.capSr := by simp [State.rearm]
@[simp] theorem State.rearm_txPhase (s : State) : s.rearm.txPhase = s.txPhase := by simp [State.rearm]
@[simp] theorem State.rearm_txByte (s : State) : s.rearm.txByte = s.txByte := by simp [State.rearm]
@[simp] theorem State.rearm_waitT0 (s : State) : s.rearm.waitT0 = s.waitT0 := by simp [State.rearm]
@[simp] theorem State.rearm_dClk (s : State) : s.rearm.dClk = s.dClk := by simp [State.rearm]
@[simp] theorem State.rearm_dData (s : State) : s.rearm.dData = s.dData := by simp [State.rearm]
@[simp] theorem State.rearm_tick (s : State) : s.rearm.tick = s.tick := by simp [State.rearm]
@[simp] theorem State.rearm_waiting (s : State) : s.rearm.waiting = s.waiting := by simp [State.rearm]
@[simp] theorem State.rearm_ackPhase (s : State) : s.rearm.ackPhase = s.ackPhase := by simp [State.rearm]
@[simp] theorem State.rearm_ret (s : State) : s.rearm.ret = s.ret := by simp [State.rearm]
@[simp] theorem State.rearm_program (s : State) : s.rearm.program = s.program := by simp [State.rearm]
@[simp] theorem State.rearm_schedule (s : State) : s.rearm.schedule = s.schedule := by simp [State.rearm]
@[simp] theorem State.rearm_armed (s : State) : s.rearm.armed = true := by simp [State.rearm]
@[simp] theorem State.rearm_capOnline (s : State) : s.rearm.capOnline = true := by simp [State.rearm, State.arm]
@[simp] theorem State.rearm_capCnt (s : State) : s.rearm.capCnt = 0 := by simp [State.rearm, State.arm]

end Sys2Proof.Machine
end

