-- ==== Sys2Proof/Laws/Operands.lean ====
section
/-! SUPPORT. The operand forms and flags: modular subtraction, the count of the buffer, the line levels, the bit
written into the shift register. -/

namespace Sys2Proof.Machine

theorem modSub_eq {a b M : Nat} (ha : a < M) (hb : b < M) : modSub a b M = if b ≤ a then a - b else a + M - b := by
  unfold modSub
  rw [Nat.mod_eq_of_lt hb]
  split
  · next h => rw [show a + (M - b) = (a - b) + M by omega, Nat.add_mod_right, Nat.mod_eq_of_lt (by omega)]
  · next h => rw [Nat.mod_eq_of_lt (by omega)]; omega

theorem modSub_lt (a b : Nat) {M : Nat} (h : 0 < M) : modSub a b M < M := Nat.mod_lt _ h

theorem modSub_add {a d M : Nat} (ha : a < M) (hd : d < M) : modSub ((a + d) % M) a M = d := by
  by_cases h : a + d < M
  · rw [Nat.mod_eq_of_lt h, modSub_eq h ha, if_pos (by omega)]; omega
  · have e : (a + d) % M = a + d - M := by
      rw [Nat.mod_eq_sub_mod (by omega), Nat.mod_eq_of_lt (by omega)]
    rw [e, modSub_eq (by omega) ha, if_neg (by omega)]; omega

theorem succIndex_eq (s : State) {i : Nat} (h : i < s.cfg.fifoN) :
    s.succIndex i = if i < s.cfg.fifoN - 1 then i + 1 else 0 := by
  unfold State.succIndex
  split
  · next hi => exact Nat.mod_eq_of_lt (by omega)
  · next hi => rw [show i + 1 = s.cfg.fifoN by omega, Nat.mod_self]

theorem count_eq (s : State) (hw : s.wr < s.cfg.fifoN) (hr : s.rd < s.cfg.fifoN) :
    s.count = if s.rd ≤ s.wr then s.wr - s.rd else s.wr + s.cfg.fifoN - s.rd := modSub_eq hw hr

theorem count_lt (s : State) (h : 0 < s.cfg.fifoN) : s.count < s.cfg.fifoN := modSub_lt _ _ h

theorem isEmpty_iff (s : State) : s.isEmpty = true ↔ s.wr = s.rd := by simp [State.isEmpty]

theorem isFull_iff (s : State) : s.isFull = true ↔ (s.wr + 1) % s.cfg.fifoN = s.rd := by
  unfold State.isFull State.succIndex; exact decide_eq_true_iff

theorem wr_eq_rd_iff_count (s : State) (hw : s.wr < s.cfg.fifoN) (hr : s.rd < s.cfg.fifoN) :
    s.wr = s.rd ↔ s.count = 0 := by
  rw [count_eq s hw hr]; split <;> omega

theorem full_iff_count (s : State) (h2 : 2 ≤ s.cfg.fifoN) (hw : s.wr < s.cfg.fifoN) (hr : s.rd < s.cfg.fifoN) :
    s.succIndex s.wr = s.rd ↔ s.count = s.cfg.fifoN - 1 := by
  rw [count_eq s hw hr, succIndex_eq s hw]; split <;> split <;> omega

theorem lineLevel_low (h d : Drive) : lineLevel h d = .low ↔ h = .low ∨ d = .low := by
  cases h <;> cases d <;> decide

theorem lineLevel_high (h d : Drive) : lineLevel h d = .high ↔ h = .released ∧ d = .released := by
  cases h <;> cases d <;> decide

@[simp] theorem lineLevel_released (d : Drive) :
    lineLevel .released d = match d with | .low => .low | .released => .high := by cases d <;> rfl

theorem writeBit_same (sr : RawFrame) {i : Nat} (x : Bool) (h : i < 11) : (writeBit sr i x).getLsbD i = x := by
  unfold writeBit
  interval_cases i <;> cases x <;> simp

theorem writeBit_other (sr : RawFrame) {i j : Nat} (x : Bool) (hi : i < 11) (h : j ≠ i) :
    (writeBit sr i x).getLsbD j = sr.getLsbD j := by
  by_cases hj : j < 11
  · unfold writeBit
    interval_cases i <;> interval_cases j <;> cases x <;> simp_all
  · rw [BitVec.getLsbD_of_ge _ _ (by omega), BitVec.getLsbD_of_ge _ _ (by omega)]

end Sys2Proof.Machine
end

