-- ==== Sys2Proof/Laws/Codec.lean ====
section
/-! SUPPORT. The frame of a byte bit by bit, and the fields of a frame. -/

namespace Sys2Proof.Machine

theorem encodeFrame_start (c : Config) (b : Byte) : (encodeFrame c b).getLsbD 0 = false := by simp [encodeFrame]

theorem encodeFrame_stop (c : Config) (b : Byte) : (encodeFrame c b).getLsbD 10 = true := by simp [encodeFrame]

theorem encodeFrame_parity (c : Config) (b : Byte) : (encodeFrame c b).getLsbD 9 = (xor8 b ^^ c.parityOdd) := by
  simp [encodeFrame, parityBit]

theorem encodeFrame_data (c : Config) (b : Byte) {k : Nat} (hk : k < 8) :
    (encodeFrame c b).getLsbD (k + 1) = b.getLsbD k := by
  unfold encodeFrame; interval_cases k <;> simp

/-- Bit `k` of the data field is bit `k + 1` of the frame (20_memory.md R61). -/
theorem rawData_getLsbD (raw : RawFrame) {k : Nat} (hk : k < 8) : (rawData raw).getLsbD k = raw.getLsbD (k + 1) := by
  rw [rawData, BitVec.getLsbD_extractLsb', Nat.add_comm]; simp [hk]

@[simp] theorem rawData_encodeFrame (c : Config) (b : Byte) : rawData (encodeFrame c b) = b := by
  apply BitVec.eq_of_getLsbD_eq
  intro i hi
  rw [rawData_getLsbD _ hi, encodeFrame_data c b hi]

/-- What `validate` returns is the data field. -/
theorem validateFrame_data {c : Config} {raw : RawFrame} {d : Byte} (h : validateFrame c raw = some d) :
    d = rawData raw := by
  unfold validateFrame at h
  split at h
  · cases h
  · exact (Option.some.inj h).symm

/-- The bit mask of one bit. -/
theorem one_shiftLeft_getLsbD (i : Nat) {j : Nat} (hj : j < 11) : (1#11 <<< i).getLsbD j = decide (i = j) := by
  simp only [BitVec.getLsbD_shiftLeft, BitVec.getLsbD_one]
  by_cases h : i = j <;> simp [hj, h]
  omega

end Sys2Proof.Machine
end

