-- ==== Sys2Proof/Laws/Memory.lean ====
section
/-! SUPPORT. The slot array: a read after a write, writes elsewhere, and the canonical form that every write keeps. -/

namespace Sys2Proof.Machine

@[simp] theorem readSlot_nil (i : Nat) : readSlot [] i = none := rfl

@[simp] theorem readSlot_writeSlot_same (m : Memory) (i : Nat) (b : Byte) : readSlot (writeSlot m i b) i = some b := by
  induction m with
  | nil => simp [writeSlot, readSlot]
  | cons c m ih =>
    obtain ⟨a, v⟩ := c
    simp only [writeSlot]
    split
    · simp [readSlot]
    · split
      · simp [readSlot]
      · have h : a ≠ i := by omega
        simp [readSlot, h, ih]

theorem readSlot_writeSlot_other (m : Memory) {i j : Nat} (b : Byte) (h : j ≠ i) :
    readSlot (writeSlot m i b) j = readSlot m j := by
  induction m with
  | nil => simp [writeSlot, readSlot, h.symm]
  | cons c m ih =>
    obtain ⟨a, v⟩ := c
    simp only [writeSlot]
    split
    · simp [readSlot, h.symm]
    · split
      · next hia => subst hia; simp [readSlot, h.symm]
      · simp [readSlot, ih]

/-- Every entry of the array after a write is the entry written or one that stood there. -/
theorem mem_writeSlot {m : Memory} {i : Nat} {b : Byte} {c : Host.Cell} (h : c ∈ writeSlot m i b) :
    c = (i, b) ∨ c ∈ m := by
  induction m with
  | nil => simpa [writeSlot] using h
  | cons d m ih =>
    obtain ⟨a, v⟩ := d
    simp only [writeSlot] at h
    split at h
    · simpa using h
    · split at h
      · simp only [List.mem_cons] at h ⊢; tauto
      · simp only [List.mem_cons] at h ⊢
        rcases h with h | h
        · exact .inr (.inl h)
        · rcases ih h with h | h <;> tauto

theorem writeSlot_wf {m : Memory} (i : Nat) (b : Byte) (h : Memory.wf m) : Memory.wf (writeSlot m i b) := by
  induction m with
  | nil => simp [writeSlot, Memory.wf]
  | cons c m ih =>
    obtain ⟨a, v⟩ := c
    have ⟨ha, hm⟩ := List.pairwise_cons.1 h
    simp only [writeSlot]
    split
    · next hi =>
      refine List.pairwise_cons.2 ⟨fun d hd => ?_, h⟩
      rcases List.mem_cons.1 hd with rfl | hd
      · exact hi
      · exact Nat.lt_trans hi (ha d hd)
    · split
      · next hi => subst hi; exact List.pairwise_cons.2 ⟨ha, hm⟩
      · refine List.pairwise_cons.2 ⟨fun d hd => ?_, ih hm⟩
        rcases mem_writeSlot hd with rfl | hd
        · show a < i; omega
        · exact ha d hd

theorem writeSlot_range {m : Memory} {i n : Nat} (b : Byte) (hi : i < n) (h : ∀ c ∈ m, c.1 < n) :
    ∀ c ∈ writeSlot m i b, c.1 < n := by
  intro c hc
  rcases mem_writeSlot hc with rfl | hc
  · exact hi
  · exact h c hc

/-- A slot that has been written stays written, whatever slot is written next. -/
theorem readSlot_writeSlot_isSome {m : Memory} {i j : Nat} (b : Byte) (h : (readSlot m j).isSome = true) :
    (readSlot (writeSlot m i b) j).isSome = true := by
  by_cases hj : j = i
  · subst hj; simp
  · rwa [readSlot_writeSlot_other m b hj]

end Sys2Proof.Machine
end

