-- ==== Sys2Proof/Laws/Ops.lean ====
section
/-! SUPPORT. One lemma per shared operation: everything it can do. Proofs about the meanings cite these. -/

namespace Sys2Proof.Machine

/-- `push` when full. -/
theorem pushByte_full {s : State} (b : Byte) (h : s.succIndex s.wr = s.rd) : pushByte s b = .next s := by
  simp [pushByte, State.isFull, h]

/-- `push` when not full. -/
theorem pushByte_store {s : State} (b : Byte) (hw : s.wr < s.cfg.fifoN) (h : s.succIndex s.wr ≠ s.rd) :
    pushByte s b = .next { s with buf := writeSlot s.buf s.wr b, wr := s.succIndex s.wr } := by
  simp [pushByte, State.isFull, h, memWrite, hw]

/-- `push` when not full, at an index outside the slot array. -/
theorem pushByte_fault {s : State} (b : Byte) (hw : s.cfg.fifoN ≤ s.wr) (h : s.succIndex s.wr ≠ s.rd) :
    pushByte s b = .fault (.slotOutOfRange s.wr) := by
  simp [pushByte, State.isFull, h, memWrite, Nat.not_lt.2 hw]

/-- Everything `push` can do when it goes on. -/
theorem pushByte_cases {s t : State} {b : Byte} (h : pushByte s b = .next t) :
    (s.succIndex s.wr = s.rd ∧ t = s) ∨
    (s.succIndex s.wr ≠ s.rd ∧ s.wr < s.cfg.fifoN ∧
      t = { s with buf := writeSlot s.buf s.wr b, wr := s.succIndex s.wr }) := by
  by_cases hf : s.succIndex s.wr = s.rd
  · rw [pushByte_full b hf] at h; exact .inl ⟨hf, (Host.Outcome.next.inj h).symm⟩
  · by_cases hw : s.wr < s.cfg.fifoN
    · rw [pushByte_store b hw hf] at h; exact .inr ⟨hf, hw, (Host.Outcome.next.inj h).symm⟩
    · rw [pushByte_fault b (Nat.not_lt.1 hw) hf] at h; cases h

/-- `read_byte` on an empty buffer. -/
theorem popByte_empty {s : State} (h : s.wr = s.rd) : popByte s = .ok (none, s) := by
  simp [popByte, State.isEmpty, h]

/-- `read_byte` when the read slot has been written. -/
theorem popByte_take {s : State} {v : Byte} (h : s.wr ≠ s.rd) (hr : s.rd < s.cfg.fifoN)
    (hv : readSlot s.buf s.rd = some v) : popByte s = .ok (some v, { s with rd := s.succIndex s.rd }) := by
  simp [popByte, State.isEmpty, h, memRead, hr, hv]

/-- `read_byte` at an index outside the slot array. -/
theorem popByte_range {s : State} (h : s.wr ≠ s.rd) (hr : s.cfg.fifoN ≤ s.rd) :
    popByte s = .error (.slotOutOfRange s.rd) := by
  simp [popByte, State.isEmpty, h, memRead, Nat.not_lt.2 hr]

/-- `read_byte` of a slot never written. -/
theorem popByte_unwritten {s : State} (h : s.wr ≠ s.rd) (hr : s.rd < s.cfg.fifoN)
    (hv : readSlot s.buf s.rd = none) : popByte s = .error (.unwrittenSlot s.rd) := by
  simp [popByte, State.isEmpty, h, memRead, hr, hv]

/-- Everything `read_byte` can do when it goes on. -/
theorem popByte_cases {s t : State} {r : Option Byte} (h : popByte s = .ok (r, t)) :
    (s.wr = s.rd ∧ r = none ∧ t = s) ∨
    (s.wr ≠ s.rd ∧ s.rd < s.cfg.fifoN ∧ ∃ v, readSlot s.buf s.rd = some v ∧ r = some v ∧
      t = { s with rd := s.succIndex s.rd }) := by
  by_cases he : s.wr = s.rd
  · rw [popByte_empty he] at h; cases h; exact .inl ⟨he, rfl, rfl⟩
  · by_cases hr : s.rd < s.cfg.fifoN
    · cases hv : readSlot s.buf s.rd with
      | none => rw [popByte_unwritten he hr hv] at h; cases h
      | some v => rw [popByte_take he hr hv] at h; cases h; exact .inr ⟨he, hr, v, rfl, rfl, rfl⟩
    · rw [popByte_range he (Nat.not_lt.1 hr)] at h; cases h

/-- `arm_receive` from armed: nothing. -/
theorem State.arm_of_armed {s : State} (h : s.armed = true) : s.arm = s := by simp [State.arm, h]

/-- `arm_receive` from online and not armed. -/
theorem State.arm_of_online {s : State} (h : s.armed = false) (ho : s.capOnline = true) :
    s.arm = { s with capCnt := 0, armed := true } := by simp [State.arm, State.bringOnline, h, ho]

/-- `arm_receive` from offline. -/
theorem State.arm_of_offline {s : State} (h : s.armed = false) (ho : s.capOnline = false) :
    s.arm = { s with hClk := .released, hData := .released, capOnline := true, capCnt := 0, armed := true } := by
  simp [State.arm, State.bringOnline, h, ho]

/-- How a handler ends in the state its event needs: armed and online. -/
theorem State.rearm_of_enabled {s : State} (h : s.armed = true) (ho : s.capOnline = true) :
    s.rearm = { s with capCnt := 0 } := by
  obtain ⟨cfg, buf, wr, rd, armed, on, cnt, sr, ph, tb, t0, hc, hd, dc, dd, tk, wt, ap, rt, pr, sc⟩ := s
  simp only at h ho
  subst h ho
  rfl

/-- Everything a completion can do when it goes on: the handler's body, then the re-arm. -/
theorem takeCompletion_cases {s t : State} {body : State → Result} (h : takeCompletion body s = .next t) :
    ∃ u, body { s with capCnt := 0 } = .next u ∧ t = u.rearm := by
  unfold takeCompletion andThen at h
  split at h
  · next u hu => exact ⟨u, hu, (Host.Outcome.next.inj h).symm⟩
  · cases h
  · cases h

/-- The entry of a bounded wait. -/
theorem waitStep_entry {s : State} (hit : Bool) (n : Nat) (h : s.waiting = false) :
    waitStep s hit n = (.again, { s with waitT0 := s.tick, waiting := true }) := by simp [waitStep, h]

/-- A pass that finds the condition met. -/
theorem waitStep_seen {s : State} (n : Nat) (h : s.waiting = true) :
    waitStep s true n = (.seen, { s with waiting := false }) := by simp [waitStep, h]

/-- A pass that finds the time run out. -/
theorem waitStep_timeout {s : State} {n : Nat} (h : s.waiting = true) (ht : n ≤ s.elapsed) :
    waitStep s false n = (.timeout, { s with waiting := false }) := by simp [waitStep, h, ht]

/-- A pass that goes round. -/
theorem waitStep_again {s : State} {n : Nat} (h : s.waiting = true) (ht : s.elapsed < n) :
    waitStep s false n = (.again, s) := by simp [waitStep, h, Nat.not_le.2 ht]

/-- Everything a step of a bounded wait can do. -/
theorem waitStep_cases (s : State) (hit : Bool) (n : Nat) :
    (s.waiting = false ∧ waitStep s hit n = (.again, { s with waitT0 := s.tick, waiting := true })) ∨
    (s.waiting = true ∧ hit = true ∧ waitStep s hit n = (.seen, { s with waiting := false })) ∨
    (s.waiting = true ∧ hit = false ∧ n ≤ s.elapsed ∧ waitStep s hit n = (.timeout, { s with waiting := false })) ∨
    (s.waiting = true ∧ hit = false ∧ s.elapsed < n ∧ waitStep s hit n = (.again, s)) := by
  cases hw : s.waiting with
  | false => exact .inl ⟨rfl, waitStep_entry hit n hw⟩
  | true =>
    cases hit with
    | true => exact .inr (.inl ⟨rfl, rfl, waitStep_seen n hw⟩)
    | false =>
      by_cases ht : n ≤ s.elapsed
      · exact .inr (.inr (.inl ⟨rfl, rfl, ht, waitStep_timeout hw ht⟩))
      · exact .inr (.inr (.inr ⟨rfl, rfl, Nat.not_le.1 ht, waitStep_again hw (Nat.not_le.1 ht)⟩))

/-- A slot write keeps the canonical form and the range of the slot array. -/
theorem memWrite_keeps {s t : State} {i : Nat} {b : Byte} (h : memWrite s i b = .ok t) (hw : Memory.wf s.buf)
    (hr : ∀ c ∈ s.buf, c.1 < s.cfg.fifoN) :
    Memory.wf t.buf ∧ (∀ c ∈ t.buf, c.1 < t.cfg.fifoN) ∧ t = { s with buf := writeSlot s.buf i b } := by
  unfold memWrite at h
  split at h
  · next hi => cases h; exact ⟨writeSlot_wf i b hw, writeSlot_range b hi hr, rfl⟩
  · cases h

/-- The write index is `count` slots after the read index. -/
theorem slot_at_count {s : State} (hw : s.wr < s.cfg.fifoN) (hr : s.rd < s.cfg.fifoN) :
    (s.rd + s.count) % s.cfg.fifoN = s.wr := by
  rw [count_eq s hw hr]
  split
  · rw [show s.rd + (s.wr - s.rd) = s.wr by omega]; exact Nat.mod_eq_of_lt hw
  · rw [show s.rd + (s.wr + s.cfg.fifoN - s.rd) = s.wr + s.cfg.fifoN by omega, Nat.add_mod_right]
    exact Nat.mod_eq_of_lt hw

/-- Advancing the write index of a buffer that is not full adds one to the count. -/
theorem count_advance_wr {s t : State} (hN : 2 ≤ s.cfg.fifoN) (hw : s.wr < s.cfg.fifoN) (hr : s.rd < s.cfg.fifoN)
    (hf : s.succIndex s.wr ≠ s.rd) (hc : t.cfg = s.cfg) (hwt : t.wr = s.succIndex s.wr) (hrt : t.rd = s.rd) :
    t.count = s.count + 1 := by
  have h1 := succIndex_eq s hw
  have hwt' : t.wr < t.cfg.fifoN := by rw [hwt, hc]; exact Nat.mod_lt _ (by omega)
  rw [count_eq t hwt' (by rw [hrt, hc]; exact hr), count_eq s hw hr, hwt, hrt, hc, h1]
  rw [h1] at hf
  split at hf <;> (repeat' split) <;> simp_all <;> omega

end Sys2Proof.Machine
end

