-- ==== Sys2Proof/Laws/PerInstr.lean ====
section
/-! SUPPORT. Statements per instruction. Family `CommandWord`: an operation has a command word exactly if the operation
map selects it by one (30_encoding.md R100), and what has a word may run in the foreground (60_exceptions.md R286). -/

namespace Sys2Proof.Laws

/-- The operation's word exists exactly if it is a command, and then it may run in the foreground. -/
def CommandWord.Statement (i : Instr) : Prop :=
  (encode i).isSome = i.isCommand ∧ (i.isCommand = true → i.mayRunIn .foreground = true)

theorem CommandWord.validate (raw : RawFrame) : CommandWord.Statement (.validate raw) := ⟨rfl, fun h => nomatch h⟩
theorem CommandWord.encode (b : Byte) : CommandWord.Statement (.encode b) := ⟨rfl, fun h => nomatch h⟩
theorem CommandWord.push (b : Byte) : CommandWord.Statement (.push b) := ⟨rfl, fun h => nomatch h⟩
theorem CommandWord.readByte : CommandWord.Statement .readByte := ⟨rfl, fun _ => rfl⟩
theorem CommandWord.bytesAvailable (n : Byte) : CommandWord.Statement (.bytesAvailable n) := ⟨rfl, fun _ => rfl⟩
theorem CommandWord.resetBuffer : CommandWord.Statement .resetBuffer := ⟨rfl, fun h => nomatch h⟩
theorem CommandWord.armReceive : CommandWord.Statement .armReceive := ⟨rfl, fun _ => rfl⟩
theorem CommandWord.captureBit (x : Level) : CommandWord.Statement (.captureBit x) := ⟨rfl, fun h => nomatch h⟩
theorem CommandWord.onCaptureComplete (raw : RawFrame) : CommandWord.Statement (.onCaptureComplete raw) :=
  ⟨rfl, fun h => nomatch h⟩
theorem CommandWord.onCaptureError : CommandWord.Statement .onCaptureError := ⟨rfl, fun h => nomatch h⟩
theorem CommandWord.teardownCapture : CommandWord.Statement .teardownCapture := ⟨rfl, fun h => nomatch h⟩
theorem CommandWord.restartCapture : CommandWord.Statement .restartCapture := ⟨rfl, fun h => nomatch h⟩
theorem CommandWord.sendByte (b : Byte) : CommandWord.Statement (.sendByte b) := ⟨rfl, fun _ => rfl⟩
theorem CommandWord.waitClk (l : Level) : CommandWord.Statement (.waitClk l) := ⟨rfl, fun h => nomatch h⟩
theorem CommandWord.waitIdle : CommandWord.Statement .waitIdle := ⟨rfl, fun h => nomatch h⟩
theorem CommandWord.getAck : CommandWord.Statement .getAck := ⟨rfl, fun _ => rfl⟩

end Sys2Proof.Laws
end

