-- ==== Sys2Proof/Laws/Step.lean ====
section
/-! SUPPORT. The step of a scheduled agent, and what the foreground's steps leave alone. -/

namespace Sys2Proof.Machine

/-- The step lets the scheduled agent step. -/
theorem step_scheduled {s : State} {e : Event} {rest : List Event} (hc : s.cfg.wf = true) (hs : s.schedule = e :: rest) :
    step s = agentStep e { s with schedule := rest } := by simp [step, hc, hs]

/-- A state that steps on has an allowed configuration. -/
theorem cfg_wf_of_step {s t : State} (h : step s = .next t) : s.cfg.wf = true := by
  unfold step at h; split at h
  · assumption
  · cases h

/-- The foreground's step during a transmission. -/
theorem foregroundStep_sending {s : State} {i : Nat} (hp : s.txPhase = .at i) : foregroundStep s = txStep i s := by
  simp [foregroundStep, State.call, hp, exec, execSendByte]

/-- The foreground's step during `get_ack`. -/
theorem foregroundStep_acking {s : State} (hp : s.txPhase = .idle) (ha : s.ackPhase ≠ .idle) :
    foregroundStep s = execGetAck s := by simp [foregroundStep, State.call, hp, ha, exec]

/-- The foreground's step with no call in progress and a word that decodes. -/
theorem foregroundStep_fetch {s : State} {w : CmdWord} {ws : List CmdWord} {i : Instr} (hp : s.txPhase = .idle)
    (ha : s.ackPhase = .idle) (hq : s.program = w :: ws) (hd : decodeCmd w = .ok i) :
    foregroundStep s = exec i { s with program := ws } := by simp [foregroundStep, State.call, hp, ha, hq, hd]

/-- One clock wait's step inside `send_byte`: entry, go round, or on to the next phase. -/
theorem afterClkWait_cases (i : Nat) (l : Level) (s : State) :
    (s.waiting = false ∧ afterClkWait i (s.waitClkStep l) = { s with waitT0 := s.tick, waiting := true }) ∨
    (s.waiting = true ∧ s.clk ≠ l ∧ s.elapsed < s.cfg.tClkWait ∧ afterClkWait i (s.waitClkStep l) = s) ∨
    (s.waiting = true ∧ (s.clk = l ∨ s.cfg.tClkWait ≤ s.elapsed) ∧
      afterClkWait i (s.waitClkStep l) = { s with waiting := false, txPhase := .at (i + 1) }) := by
  rcases waitStep_cases s (decide (s.clk = l)) s.cfg.tClkWait with ⟨h, e⟩ | ⟨h, hh, e⟩ | ⟨h, hh, ht, e⟩ | ⟨h, hh, ht, e⟩
  · exact .inl ⟨h, by rw [State.waitClkStep, e]; rfl⟩
  · exact .inr (.inr ⟨h, .inl (of_decide_eq_true hh), by rw [State.waitClkStep, e]; rfl⟩)
  · exact .inr (.inr ⟨h, .inr ht, by rw [State.waitClkStep, e]; rfl⟩)
  · exact .inr (.inl ⟨h, of_decide_eq_false hh, ht, by rw [State.waitClkStep, e]; rfl⟩)

/-- The idle wait's step inside `send_byte`: entry, go round, or the end of the call. -/
theorem afterIdleWait_cases (s : State) :
    (s.waiting = false ∧ afterIdleWait s.waitIdleStep = { s with waitT0 := s.tick, waiting := true }) ∨
    (s.waiting = true ∧ ¬(s.clk = .high ∧ s.data = .high) ∧ s.elapsed < s.cfg.tIdle ∧
      afterIdleWait s.waitIdleStep = s) ∨
    (s.waiting = true ∧ ((s.clk = .high ∧ s.data = .high) ∨ s.cfg.tIdle ≤ s.elapsed) ∧
      afterIdleWait s.waitIdleStep = { s with waiting := false, txPhase := .idle, ret := .done }) := by
  rcases waitStep_cases s (decide (s.clk = .high) && decide (s.data = .high)) s.cfg.tIdle with
    ⟨h, e⟩ | ⟨h, hh, e⟩ | ⟨h, hh, ht, e⟩ | ⟨h, hh, ht, e⟩
  · exact .inl ⟨h, by rw [State.waitIdleStep, e]; rfl⟩
  · exact .inr (.inr ⟨h, .inl (by simpa using hh), by rw [State.waitIdleStep, e]; rfl⟩)
  · exact .inr (.inr ⟨h, .inr ht, by rw [State.waitIdleStep, e]; rfl⟩)
  · exact .inr (.inl ⟨h, by simpa using hh, ht, by rw [State.waitIdleStep, e]; rfl⟩)

/-- What a step of `send_byte` leaves alone. -/
theorem txStep_frame {s t : State} {i : Nat} (h : txStep i s = .next t) :
    t.buf = s.buf ∧ t.wr = s.wr ∧ t.rd = s.rd ∧ t.capSr = s.capSr ∧ t.dClk = s.dClk ∧ t.dData = s.dData ∧
      t.tick = s.tick ∧ t.schedule = s.schedule ∧ t.program = s.program ∧ t.cfg = s.cfg ∧ t.txByte = s.txByte ∧
      t.ackPhase = s.ackPhase := by
  unfold txStep at h
  split at h
  · cases h; simp
  · cases h; simp
  · cases h; simp
  · next l _ =>
    cases h
    rcases afterClkWait_cases i l s with ⟨_, e⟩ | ⟨_, _, _, e⟩ | ⟨_, _, e⟩ <;> rw [e] <;> simp
  · cases h
    rcases afterIdleWait_cases s with ⟨_, e⟩ | ⟨_, _, _, e⟩ | ⟨_, _, e⟩ <;> rw [e] <;> simp
  · cases h

/-- What a step of `get_ack` leaves alone; only (g1) writes the write index. -/
theorem execGetAck_frame {s t : State} (h : execGetAck s = .next t) :
    t.buf = s.buf ∧ t.capSr = s.capSr ∧ t.dClk = s.dClk ∧ t.dData = s.dData ∧ t.tick = s.tick ∧
      t.schedule = s.schedule ∧ t.program = s.program ∧ t.cfg = s.cfg ∧ t.txByte = s.txByte ∧
      (t.wr = s.wr ∨ t.wr = 0 ∧ s.ackPhase = .idle) := by
  unfold execGetAck at h
  split at h
  · cases ha : s.ackPhase <;> rw [ha] at h <;> simp only at h
    · cases h; exact ⟨rfl, rfl, rfl, rfl, rfl, rfl, rfl, rfl, rfl, .inr ⟨rfl, rfl⟩⟩
    · cases h; simp
    · cases h; simp
    · cases h; simp
    · split at h
      · cases h; simp
      · split at h <;> cases h <;> simp
    · cases hp : popByte s with
      | error f => rw [hp] at h; cases h
      | ok r =>
        obtain ⟨r, u⟩ := r
        rw [hp] at h
        rcases popByte_cases hp with ⟨-, rfl, rfl⟩ | ⟨-, -, v, -, rfl, rfl⟩ <;> (simp only at h; cases h; simp)
    · cases h; simp
  · cases h

/-- The command words that decode, by operation. -/
theorem decodeCmd_cases {w : CmdWord} {i : Instr} (h : decodeCmd w = .ok i) :
    (i = .armReceive ∧ w = 0x100#12) ∨ (∃ n, i = .bytesAvailable n ∧ w = cmdWord 2#4 n) ∨
    (i = .readByte ∧ w = 0x300#12) ∨ (∃ b, i = .sendByte b ∧ w = cmdWord 4#4 b) ∨ (i = .getAck ∧ w = 0x500#12) := by
  have hw := cmdWord_fields w
  simp only [decodeCmd, noOperand] at h
  repeat' split at h
  all_goals first | (cases h; done) | skip
  all_goals simp only [Except.ok.injEq] at h; subst h; simp_all
  all_goals rw [← hw]; rfl

/-- A run of any machine begins with a step. -/
theorem run_succ_iff (M : Host.Core) (n : Nat) (s u : M.State) :
    M.run (n + 1) s = .next u ↔ ∃ t, M.step s = .next t ∧ M.run n t = .next u := by
  rw [Host.Core.run]
  cases M.step s <;> simp

/-- A run begins with a step. -/
theorem runs_succ_iff {n : Nat} {s u : State} : Runs (n + 1) s u ↔ ∃ t, step s = .next t ∧ Runs n t u :=
  run_succ_iff Sys2Proof.core n s u

/-- A run in two parts. -/
theorem runs_append {m n : Nat} {s t u : State} (h : Runs m s t) (h' : Runs n t u) : Runs (m + n) s u := by
  induction m generalizing s with
  | zero => cases h; rwa [Nat.zero_add]
  | succ m ih =>
    obtain ⟨v, hv, hr⟩ := runs_succ_iff.1 h
    rw [Nat.succ_add]
    exact runs_succ_iff.2 ⟨v, hv, ih hr⟩

/-- The passes of a call, one more at the end. -/
theorem passes_succ (gaps : Nat → List Event) (n : Nat) :
    passes gaps (n + 1) = passes gaps n ++ (gaps n ++ [.foreground]) := by
  simp [passes, List.range_succ]

/-- The passes of a call, the first taken off. -/
theorem passes_first (gaps : Nat → List Event) (n : Nat) :
    passes gaps (n + 1) = gaps 0 ++ (.foreground :: passes (fun i => gaps (i + 1)) n) := by
  simp [passes, List.range_succ_eq_map, List.flatMap_map]

@[simp] theorem ticksIn_nil : ticksIn [] = 0 := rfl

@[simp] theorem ticksIn_cons (e : Event) (es : List Event) : ticksIn (e :: es) = tickAdvance e + ticksIn es := by
  simp [ticksIn]

/-- Fairness of the tick holds of what is left after a pass. -/
theorem TickFair.later {gaps : Nat → List Event} (h : TickFair gaps) : TickFair fun i => gaps (i + 1) := by
  intro i
  obtain ⟨j, hj, ht⟩ := h (i + 1)
  exact ⟨j - 1, by omega, by simpa only [show j - 1 + 1 = j by omega] using ht⟩

/-- A wait that is still waiting goes round: a foreground step takes the schedule entry and changes nothing else. -/
theorem StillWaiting.goes_round {s : State} (h : StillWaiting s) : foregroundStep s = .next s := by
  cases h with
  | clk i l phase row loop level time =>
    rw [foregroundStep_sending phase, txStep, row]
    show Host.Outcome.next _ = _
    rcases afterClkWait_cases i l s with ⟨hw, _⟩ | ⟨_, _, _, e⟩ | ⟨_, hx, _⟩
    · rw [loop] at hw; cases hw
    · rw [e]
    · rcases hx with hx | hx
      · exact absurd hx level
      · omega
  | idle i phase row loop level time =>
    rw [foregroundStep_sending phase, txStep, row]
    show Host.Outcome.next _ = _
    rcases afterIdleWait_cases s with ⟨hw, _⟩ | ⟨_, _, _, e⟩ | ⟨_, hx, _⟩
    · rw [loop] at hw; cases hw
    · rw [e]
    · rcases hx with ⟨hc, hd⟩ | hx
      · rcases level with hl | hl
        · rw [hc] at hl; cases hl
        · rw [hd] at hl; cases hl
      · omega
  | ack phase loop level time =>
    rw [foregroundStep_acking phase (by rw [loop]; decide)]
    simp [execGetAck, phase, loop, State.hasBytes, level, Nat.not_le.2 time]

end Sys2Proof.Machine
end

