-- ==== Sys2Proof/Tests/Slice0.lean ====
section
/-! SUPPORT. Tests and witnesses. Expected values are the spec's: the vectors V, B, C, T and the programs P of
95_test_vectors.md, the corner cases of the operation rules, or a hand calculation from a rule named beside the test.
A `wit_` theorem shows a concrete input that meets the hypotheses of the statement it is named after. -/

namespace Sys2Proof.Tests

open Sys2Proof Sys2Proof.Machine

/-! ### Smoke tests of well-formedness: each check refuses a term -/

theorem test_wf_vectors : Config.vectors.wf = true := by decide
theorem test_wf_refuses_one_slot : ({ Config.vectors with fifoN := 1 } : Config).wf = false := by decide
theorem test_wf_accepts_two_slots : ({ Config.vectors with fifoN := 2 } : Config).wf = true := by decide
theorem test_wf_refuses_zero_clkwait : ({ Config.vectors with tClkWait := 0 } : Config).wf = false := by decide
theorem test_wf_refuses_zero_idle : ({ Config.vectors with tIdle := 0 } : Config).wf = false := by decide
theorem test_wf_refuses_zero_ack : ({ Config.vectors with tAck := 0 } : Config).wf = false := by decide
theorem test_wf_refuses_zero_inhibit : ({ Config.vectors with tInhibit := 0 } : Config).wf = false := by decide
theorem test_wf_refuses_narrow_tick : ({ Config.vectors with tickW := 7 } : Config).wf = false := by decide
theorem test_wf_refuses_long_clkwait : ({ Config.vectors with tickW := 8, tClkWait := 256 } : Config).wf = false := by
  decide
theorem test_wf_refuses_long_idle : ({ Config.vectors with tickW := 8, tIdle := 256 } : Config).wf = false := by decide
theorem test_wf_refuses_long_ack : ({ Config.vectors with tickW := 8, tAck := 256 } : Config).wf = false := by decide
theorem test_wf_accepts_longest : ({ Config.vectors with tickW := 8, tClkWait := 255 } : Config).wf = true := by decide
theorem test_no_command_selects_push : (Instr.push 0#8).isCommand = false := by decide
theorem test_push_not_in_foreground : (Instr.push 0#8).mayRunIn .foreground = false := by decide
theorem test_read_byte_not_in_completion : Instr.readByte.mayRunIn .completion = false := by decide
theorem test_send_byte_not_in_completion : (Instr.sendByte 0#8).mayRunIn .completion = false := by decide
theorem test_arm_receive_in_both :
    (Instr.armReceive.mayRunIn .foreground && Instr.armReceive.mayRunIn .completion) = true := by decide
theorem test_idx_w : Config.vectors.idxW = 3 ∧ ({ Config.vectors with fifoN := 12 } : Config).idxW = 4 := by decide

/-! ### Decoding: words written out from 30_encoding.md R98 and R100 -/

theorem test_decode_arm_receive : decodeCmd 0b000100000000#12 = .ok .armReceive := by decide
theorem test_decode_bytes_available : decodeCmd 0b001000000011#12 = .ok (.bytesAvailable 3#8) := by decide
theorem test_decode_read_byte : decodeCmd 0b001100000000#12 = .ok .readByte := by decide
theorem test_decode_send_byte : decodeCmd 0b010011110100#12 = .ok (.sendByte 0xF4#8) := by decide
theorem test_decode_get_ack : decodeCmd 0b010100000000#12 = .ok .getAck := by decide
theorem test_decode_refuses_op_6 : decodeCmd 0x600#12 = .error (.unassignedOp 6#4) := by decide
theorem test_decode_refuses_op_f : decodeCmd 0xF00#12 = .error (.unassignedOp 15#4) := by decide
theorem test_decode_refuses_operand : decodeCmd 0x3FF#12 = .error (.operandNotAllowed 3#4 255#8) := by decide
theorem test_table_word_get_ack : decodeTableWord 16 0x500 = some .getAck := by decide
theorem test_table_word_too_wide : decodeTableWord 16 0x1500 = none := by decide

/-! ### Small states -/

/-- Reset, then `arm_receive`. -/
def armed0 : State := { State.reset with armed := true, capOnline := true }

/-- The full buffer of vector B3. -/
def full : State :=
  { armed0 with buf := [(0, 0x10#8), (1, 0x11#8), (2, 0x12#8), (3, 0x13#8), (4, 0x14#8)], wr := 5 }

/-- Two bytes queued, as in programs P1 and P3. -/
def two : State := { armed0 with buf := [(0, 0x08#8), (1, 0x05#8)], wr := 2 }

/-- A `send_byte(b)` call at phase `i`, with the pins the step table gives. -/
def sending (c : Config) (b : Byte) (i : Nat) (waiting : Bool) : State :=
  { State.reset with
    cfg := c, txPhase := .at i, txByte := b, waiting := waiting
    hClk := clockDrive (.at i), hData := wireDrive c b (.at i) }

/-- A `get_ack` call at a step, armed, with the acknowledgment byte queued. -/
def acking (p : AckPhase) : State := { armed0 with buf := [(0, 0xFA#8)], wr := 1, ackPhase := p }

/-! ### Frame Codec (vectors V2, V3, V4; R121, R123) -/

theorem test_validate_fa : nextState (exec (.validate 0x5F4#11) State.reset) =
    some { State.reset with ret := .validated (some 0xFA#8) } := by decide
theorem test_validate_kinds :
    raises (.validate 0x200#11) State.reset = some .framingError ∧
    raises (.validate 0x7FF#11) State.reset = some .framingError ∧
    raises (.validate 0x7F4#11) State.reset = some .parityError ∧
    raises (.validate 0x7FC#11) State.reset = none := by decide
theorem test_encode_f4 : nextState (exec (.encode 0xF4#8) State.reset) =
    some { State.reset with ret := .frame 0x7E8#11 } := by decide
theorem test_encode_odd :
    encodeFrame { Config.vectors with parityOdd := true } 0xF4#8 = 0x5E8#11 ∧
    encodeFrame Config.vectors 0xFB#8 = 0x7F6#11 := by decide

/-! ### Receive Buffer (vectors B1 to B9) -/

theorem test_push_wraps : -- R141, example
    (nextState (exec (.push 0x41#8) { State.reset with wr := 5, rd := 2 })).map (fun t => (t.wr, t.count, t.buf)) =
      some (0, 4, [(5, 0x41#8)]) := by decide
theorem test_push_full : nextState (exec (.push 0x15#8) full) = some full := by decide -- B3
theorem test_read_byte_wraps : -- R143, example
    (nextState (exec .readByte { State.reset with rd := 5, wr := 1, buf := [(5, 0x41#8)] })).map
      (fun t => (t.rd, t.count, t.ret.word)) = some (0, 1, some 0x141#9) := by decide
theorem test_read_byte_empty : -- B1
    nextState (exec .readByte State.reset) = some { State.reset with ret := .byte none } ∧
    raises .readByte State.reset = some .noData := by decide
theorem test_bytes_available : -- R144, example
    (nextState (exec (.bytesAvailable 2#8) { State.reset with wr := 1, rd := 5 })).map (·.ret.word) = some (some 0x101#9) ∧
    (nextState (exec (.bytesAvailable 3#8) { State.reset with wr := 1, rd := 5 })).map (·.ret.word) = some (some 0x100#9) := by
  decide
theorem test_bytes_available_255 : (nextState (exec (.bytesAvailable 255#8) full)).map (·.ret) = some (.bool false) := by
  decide -- B3
theorem test_reset_buffer : -- R146, example
    nextState (exec .resetBuffer { full with wr := 4, rd := 1 }) = some { full with wr := 0, rd := 0 } := by decide

/-! ### Receive path (vectors C1 to C8) -/

theorem test_arm_receive_offline : -- C2
    nextState (exec .armReceive State.reset) = some { armed0 with ret := .done } := by decide
theorem test_arm_receive_midframe : -- C4
    (nextState (exec .armReceive { armed0 with capCnt := 4 })).map (·.capCnt) = some 4 := by decide
theorem test_capture_bit : -- R172, example
    nextState (exec (.captureBit .high) { armed0 with capCnt := 3 }) =
      some { armed0 with capCnt := 4, capSr := 0b00000001000#11 } := by decide
theorem test_capture_bit_completes : -- C3, the 11th sample of 0x5F4
    (nextState (exec (.captureBit .high) { armed0 with capCnt := 10, capSr := 0x1F4#11 })).map
      (fun t => (t.buf, t.wr, t.armed, t.capCnt)) = some ([(0, 0xFA#8)], 1, true, 0) := by decide
theorem test_complete_into_full : -- C8
    nextState (exec (.onCaptureComplete 0x62A#11) full) = some full ∧
    raises (.onCaptureComplete 0x62A#11) full = some .overflow := by decide
theorem test_complete_parity : -- C7
    nextState (exec (.onCaptureComplete 0x682#11) armed0) = some armed0 := by decide
theorem test_capture_error : -- C5
    nextState (exec .onCaptureError { armed0 with capCnt := 7 }) = some armed0 := by decide
theorem test_teardown : -- C6
    nextState (exec .teardownCapture { two with capCnt := 4 }) =
      some { two with armed := false, capOnline := false } := by decide
theorem test_restart : -- C6
    nextState (exec .restartCapture { armed0 with capCnt := 4 }) = some { armed0 with armed := false } := by decide

/-! ### Transmit path (vectors T1, T2, T3, T4; program P3) -/

theorem test_send_byte_start : -- P3, host 0
    (nextState (exec (.sendByte 0xF4#8) two)).map
      (fun t => (t.txPhase, t.armed, t.capOnline, t.wr)) = some (.at 1, false, false, 2) := by decide
theorem test_send_byte_first_bit : -- T1, row 0xF4: b2 is R, at phase 12
    (nextState (exec (.sendByte 0xF4#8) (sending Config.vectors 0xF4#8 12 false))).map
      (fun t => (t.hData, t.txPhase)) = some (.released, .at 13) := by decide
theorem test_wait_clk_timeout : -- T2
    (nextState (exec (.waitClk .low) { State.reset with waiting := true, waitT0 := 1000, tick := 1025 })).map (·.ret) =
      some (.wait .timeout) ∧
    (nextState (exec (.waitClk .low) { State.reset with waiting := true, waitT0 := 1000, tick := 1024 })).map (·.ret) =
      some (.wait .again) := by decide
theorem test_elapsed_across_wrap : -- T3
    ({ State.reset with waitT0 := 0xFFFFFFF0, tick := 8 } : State).elapsed = 24 ∧
    ({ State.reset with waitT0 := 0xFFFFFFF0, tick := 9 } : State).elapsed = 25 := by decide
theorem test_wait_idle_data_low : -- P3, host 35: go round
    (nextState (exec .waitIdle { State.reset with waiting := true, dData := .low })).map (·.ret) =
      some (.wait .again) := by decide
theorem test_get_ack_takes_byte : -- T4, frame 0x5F4: (g6), then (g7)
    nextState (exec .getAck (acking .g6)) = some { acking (.g7 0xFA#8) with rd := 1 } ∧
    (nextState (exec .getAck (acking (.g7 0xFA#8)))).map (·.ret.word) = some (some 0x101#9) := by decide
theorem test_get_ack_wrong_code : -- T4, 0xFC
    (nextState (exec .getAck (acking (.g7 0xFC#8)))).map (·.ret.word) = some (some 0x100#9) := by decide

/-! ### The step -/

theorem test_step_from_reset : -- CMD 0x100, program P1 row 1
    nextState (step (State.reset.withFetchWord 16 0x100)) = some { armed0 with ret := .done } := by decide
theorem test_step_malformed : -- "Malformed command words"
    (nextState (step (State.reset.withFetchWord 16 0x7AB))).map (fun t => (t.ret.word, t.program)) =
      some (some 0#9, []) := by decide
theorem test_step_sample : -- R172: a falling edge with DATA low
    (nextState (step { armed0 with schedule := [.device .low .low] })).map (fun t => (t.capCnt, t.dClk)) =
      some (1, .low) := by decide
theorem test_step_offline_edge : -- C1
    (nextState (step { State.reset with schedule := [.device .low .low] })).map (·.capCnt) = some 0 := by decide

/-! ### The invariant, decided on a concrete state -/

/-- The parts of `Inv` that speak of the transmit phase. -/
def phaseCheck (s : State) : Bool :=
  match s.txPhase with
  | .idle => !s.waiting
  | .at i =>
    decide (1 ≤ i) && decide (i ≤ s.cfg.txLast) && decide (s.ackPhase = .idle) && !s.capOnline && !s.armed &&
      (!s.waiting || isWaitPhase s.cfg s.txByte i)

/-- The parts of `Inv` that speak of the position inside `get_ack`. -/
def ackCheck (s : State) : Bool :=
  match s.ackPhase with
  | .idle => true
  | .g2 => true
  | .g3 => s.capOnline && !s.armed
  | .g4 => s.armed
  | .g5 => s.armed
  | .g6 => s.armed && decide (1 ≤ s.count)
  | .g7 _ => s.armed

/-- `Inv` as a computation. -/
def invCheck (s : State) : Bool :=
  s.cfg.wf && decide (s.wr < s.cfg.fifoN) && decide (s.rd < s.cfg.fifoN) &&
    decide (∀ k, k < s.count → (readSlot s.buf ((s.rd + k) % s.cfg.fifoN)).isSome = true) &&
    (!s.armed || s.capOnline) && (s.armed || decide (s.capCnt = 0)) &&
    (!s.capOnline || (decide (s.hClk = .released) && decide (s.hData = .released) && decide (s.txPhase = .idle))) &&
    decide (Memory.wf s.buf) && decide (∀ c ∈ s.buf, c.1 < s.cfg.fifoN) && decide (s.tick < s.cfg.tickMod) &&
    decide (s.waitT0 < s.cfg.tickMod) && decide (s.hClk = clockDrive s.txPhase) &&
    decide (s.hData = wireDrive s.cfg s.txByte s.txPhase) && phaseCheck s && ackCheck s

theorem inv_of_check {s : State} (h : invCheck s = true) : Inv s := by
  simp only [invCheck, Bool.and_eq_true, Bool.or_eq_true, Bool.not_eq_true', decide_eq_true_eq] at h
  obtain ⟨⟨⟨⟨⟨⟨⟨⟨⟨⟨⟨⟨⟨⟨hc, hw⟩, hr⟩, hq⟩, hao⟩, hac⟩, hoq⟩, hbw⟩, hbr⟩, ht⟩, ht0⟩, hck⟩, hdt⟩, hp⟩, ha⟩ := h
  have hcount : s.count < s.cfg.fifoN := Nat.mod_lt _ (by omega)
  have hack : ackReady s s.ackPhase := by
    unfold ackCheck at ha
    cases hk : s.ackPhase <;> simp_all [ackReady]
  unfold phaseCheck at hp
  rcases hph : s.txPhase with _ | i
  · rw [hph] at hp
    exact {
      cfg_wf := hc, buf_wf := hbw, buf_range := hbr, tick_lt := ht, waitT0_lt := ht0, clock_pin := hck, data_pin := hdt
      ack_ready := hack
      spec := {
        wr_lt := hw, rd_lt := hr, count_le := by omega, queued_written := hq
        armed_online := fun h => by simp_all, disarmed_no_frame := fun h => by simp_all
        capCnt_le := by omega
        online_quiet := fun h => by simp_all
        transmit_offline := fun h => absurd hph h }
      phase_range := fun i h => by simp_all
      one_call := fun h => absurd hph h
      waiting_phase := fun h => by simp_all }
  · rw [hph] at hp
    simp only [Bool.and_eq_true, Bool.or_eq_true, Bool.not_eq_true', decide_eq_true_eq] at hp
    exact {
      cfg_wf := hc, buf_wf := hbw, buf_range := hbr, tick_lt := ht, waitT0_lt := ht0, clock_pin := hck, data_pin := hdt
      ack_ready := hack
      spec := {
        wr_lt := hw, rd_lt := hr, count_le := by omega, queued_written := hq
        armed_online := fun h => by simp_all, disarmed_no_frame := fun h => by simp_all
        capCnt_le := by omega
        online_quiet := fun h => by simp_all
        transmit_offline := fun _ => ⟨hp.1.1.2, hp.1.2⟩ }
      phase_range := fun j h => by rw [hph] at h; cases h; exact ⟨hp.1.1.1.1.1, hp.1.1.1.1.2⟩
      one_call := fun _ => hp.1.1.1.2
      waiting_phase := fun h => ⟨i, hph, by simp_all⟩ }

/-! ### Witnesses: concrete inputs that meet the hypotheses of the statements of Obligations.lean -/

theorem wit_CommandDecodeEncodeAgree :
    (Instr.sendByte 0xFF#8).isCommand = true ∧ decodeCmd 0x2FF#12 = .ok (.bytesAvailable 0xFF#8) := by decide

theorem decode_refused {w : CmdWord} (h : (decodeCmd w).toOption = none) : ∀ i, decodeCmd w ≠ .ok i := by
  intro i hi; rw [hi] at h; cases h

/-- Reset with a command word waiting and the foreground scheduled. -/
def issuing (w : CmdWord) : State := { State.reset with program := [w], schedule := [.foreground] }

theorem wit_MalformedWordsAreRefused :
    (issuing 0x501#12).cfg.wf = true ∧ (issuing 0x501#12).schedule = .foreground :: [] ∧
    (issuing 0x501#12).txPhase = .idle ∧ (issuing 0x501#12).ackPhase = .idle ∧
    (issuing 0x501#12).program = 0x501#12 :: [] ∧ ∀ i, decodeCmd 0x501#12 ≠ .ok i :=
  ⟨by decide, rfl, rfl, rfl, rfl, decode_refused (by decide)⟩
theorem wit_MalformedWordsAreRefused_op0 : ∀ i, decodeCmd 0x000#12 ≠ .ok i := decode_refused (by decide)
theorem wit_MalformedWordsAreRefused_opF : ∀ i, decodeCmd 0xFFF#12 ≠ .ok i := decode_refused (by decide)
theorem wit_StepRunsDecodedInstruction :
    (issuing 0x4F4#12).cfg.wf = true ∧ (issuing 0x4F4#12).schedule = .foreground :: [] ∧
    (issuing 0x4F4#12).txPhase = .idle ∧ (issuing 0x4F4#12).ackPhase = .idle ∧
    (issuing 0x4F4#12).program = 0x4F4#12 :: [] ∧ decodeCmd 0x4F4#12 = .ok (.sendByte 0xF4#8) :=
  ⟨by decide, rfl, rfl, rfl, rfl, by decide⟩

/-- A state with one entry in its schedule. -/
def scheduled (s : State) (e : Event) : State := { s with schedule := [e] }

theorem wit_StepContinuesTheCall :
    ((scheduled (sending Config.vectors 0xF4#8 35 true) .foreground).cfg.wf = true ∧
      (scheduled (sending Config.vectors 0xF4#8 35 true) .foreground).schedule = [.foreground] ∧
      (scheduled (sending Config.vectors 0xF4#8 35 true) .foreground).txPhase = .at 35) ∧
    ((scheduled (acking .g5) .foreground).cfg.wf = true ∧ (scheduled (acking .g5) .foreground).schedule = [.foreground] ∧
      (scheduled (acking .g5) .foreground).txPhase = .idle ∧ (scheduled (acking .g5) .foreground).ackPhase ≠ .idle) ∧
    ((scheduled armed0 .foreground).cfg.wf = true ∧ (scheduled armed0 .foreground).schedule = [.foreground] ∧
      (scheduled armed0 .foreground).txPhase = .idle ∧ (scheduled armed0 .foreground).ackPhase = .idle ∧
      (scheduled armed0 .foreground).program = []) := by decide

/-- The parameters with a rising sampling edge. -/
def rising : Config := { Config.vectors with sampleEdge := .rising }

theorem wit_SamplingEdgeRunsCaptureBit_falling :
    let s := scheduled armed0 (.device .low .released)
    s.cfg.wf = true ∧ s.schedule = [.device .low .released] ∧ s.armed = true ∧ s.capOnline = true ∧
      s.cfg.sampleEdge = .falling ∧ s.clk = .high ∧ lineLevel s.hClk .low = .low := by decide
theorem wit_SamplingEdgeRunsCaptureBit_rising :
    let s := scheduled { armed0 with cfg := rising, dClk := .low } (.device .released .low)
    s.cfg.wf = true ∧ s.schedule = [.device .released .low] ∧ s.armed = true ∧ s.capOnline = true ∧
      s.cfg.sampleEdge = .rising ∧ s.clk = .low ∧ lineLevel s.hClk .released = .high := by decide
theorem wit_DisabledEventsDoNothing :
    (scheduled State.reset (.device .low .low)).armed = false ∧
    (scheduled armed0 (.device .released .low)).clk = lineLevel armed0.hClk .released ∧
    ((scheduled { armed0 with dClk := .low } (.device .released .low)).cfg.sampleEdge = .falling ∧
      (scheduled { armed0 with dClk := .low } (.device .released .low)).clk = .low) ∧
    ((scheduled { armed0 with cfg := rising } (.device .low .low)).cfg.sampleEdge = .rising ∧
      (scheduled { armed0 with cfg := rising } (.device .low .low)).clk = .high) ∧
    (scheduled State.reset .captureError).capOnline = false ∧
    (scheduled { armed0 with capOnline := false } .captureError).capOnline = false ∧
    (scheduled State.reset .captureError).cfg.wf = true ∧ rising.wf = true := by decide
theorem wit_TickSourceAndIdleSteps :
    (scheduled { armed0 with tick := 0xFFFFFFFF } (.tick 1)).cfg.wf = true ∧ armed0.cfg.wf = true ∧
      armed0.schedule = [] := by decide
theorem wit_UnsupportedConfigurationRefused :
    ({ Config.vectors with fifoN := 1 } : Config).fifoN < 2 ∧ ({ Config.vectors with tClkWait := 0 } : Config).tClkWait < 1 ∧
    ({ Config.vectors with tIdle := 0 } : Config).tIdle < 1 ∧ ({ Config.vectors with tAck := 0 } : Config).tAck < 1 ∧
    ({ Config.vectors with tInhibit := 0 } : Config).tInhibit < 1 ∧ ({ Config.vectors with tickW := 7 } : Config).tickW < 8 ∧
    ({ Config.vectors with tickW := 8 } : Config).tickMod ≤ ({ Config.vectors with tClkWait := 256 } : Config).tClkWait ∧
    ({ Config.vectors with tickW := 8 } : Config).tickMod ≤ ({ Config.vectors with tIdle := 256 } : Config).tIdle ∧
    ({ Config.vectors with tickW := 8, tAck := 256 } : Config).tickMod ≤
      ({ Config.vectors with tickW := 8, tAck := 256 } : Config).tAck := by decide

/-- The smallest parameters the spec allows. -/
def least : Config :=
  { Config.vectors with fifoN := 2, tClkWait := 1, tIdle := 1, tAck := 1, tInhibit := 1, tickW := 8 }

theorem wit_ResetMeetsTheInvariant :
    least.wf = true ∧ ({ ResetOpen.named with tick := 255, waitT0 := 255 } : ResetOpen).tick < least.tickMod ∧
      ({ ResetOpen.named with tick := 255, waitT0 := 255 } : ResetOpen).waitT0 < least.tickMod := by decide

theorem wit_Inv_reset : Inv State.reset := inv_of_check (by decide)
theorem wit_Inv_full : Inv full := inv_of_check (by decide)
theorem wit_Inv_sending_wait : Inv (sending Config.vectors 0xF4#8 5 true) := inv_of_check (by decide)
theorem wit_Inv_sending_last : Inv (sending Config.vectors 0xF4#8 35 true) := inv_of_check (by decide)
theorem wit_Inv_get_ack_loop : Inv (acking .g5) := inv_of_check (by decide)
theorem wit_Inv_get_ack_read : Inv (acking .g6) := inv_of_check (by decide)

theorem next_of {o : Result} {t : State} (h : nextState o = some t) : o = .next t := by
  cases o <;> simp_all [nextState]

theorem wit_EveryStepIsSafeAndKeepsInv : Inv (scheduled full (.device .low .low)) := inv_of_check (by decide)
theorem wit_ParametersNeverChange : step State.reset = .next State.reset := next_of (by decide)
theorem wit_OutsideAgentsWriteOnlyTheirState :
    let s := scheduled { two with capCnt := 10, capSr := 0x1F4#11 } (.device .low .released)
    Inv s ∧ s.schedule = [.device .low .released] ∧ Event.device .low .released ≠ .foreground ∧
      ∃ t, step s = .next t ∧ t.wr = 3 :=
  ⟨inv_of_check (by decide), rfl, by decide, _, next_of (by rfl), by decide⟩
theorem wit_ForegroundWritesNoSlotNoInput :
    (issuing 0x500#12).schedule = [.foreground] ∧ ∃ t, step (issuing 0x500#12) = .next t :=
  ⟨rfl, _, next_of (by rfl)⟩

/-- An armed state with one sample taken, and the same with other values in the bits not yet sampled. -/
def sampledOnce : State := { scheduled armed0 (.device .low .released) with capCnt := 1, capSr := 0b001#11 }
def sampledOnce' : State := { sampledOnce with capSr := 0b111#11, txByte := 0xAA#8, waitT0 := 99 }

theorem wit_UnspecifiedValuesNeverShow : AgreeOnWritten sampledOnce sampledOnce' ∧ ∃ t, step sampledOnce = .next t :=
  ⟨{ rest := by decide, samples := by decide, latch := fun h => absurd rfl h,
     snapshot := fun h => by rcases h with h | h <;> cases h }, _, next_of (by rfl)⟩
theorem wit_CompletionStepsRearm_complete :
    let s := scheduled { full with capCnt := 10, capSr := 0x22A#11 } (.device .low .released)
    Inv s ∧ s.schedule = [.device .low .released] ∧ s.armed = true ∧ s.capCnt.val = 10 ∧
      isSampleEdge s.cfg.sampleEdge s.clk (lineLevel s.hClk .low) = true :=
  ⟨inv_of_check (by decide), rfl, rfl, rfl, by decide⟩
theorem wit_CompletionStepsRearm_error :
    let s := scheduled { armed0 with capCnt := 7 } .captureError
    Inv s ∧ s.schedule = [.captureError] ∧ s.armed = true := ⟨inv_of_check (by decide), rfl, rfl⟩
theorem wit_AvailabilityOnlyGrowsOutsideForeground :
    let s := scheduled two (.tick 5)
    Inv s ∧ s.schedule = [.tick 5] ∧ Event.tick 5 ≠ .foreground ∧ (∃ t, step s = .next t) ∧ s.hasBytes 2 = true :=
  ⟨inv_of_check (by decide), rfl, by decide, ⟨_, next_of (by rfl)⟩, by decide⟩
theorem wit_IndexArithmeticIsModulo : -- B9, and the smallest buffer
    2 ≤ full.cfg.fifoN ∧ full.wr < full.cfg.fifoN ∧ full.rd < full.cfg.fifoN ∧ full.wr = full.cfg.fifoN - 1 ∧
    2 ≤ least.fifoN ∧ 1 < least.fifoN := by decide
theorem wit_EmptyAndFullAreCounts :
    2 ≤ two.cfg.fifoN ∧ two.wr < two.cfg.fifoN ∧ two.rd < two.cfg.fifoN ∧ full.count = full.cfg.fifoN - 1 := by decide
theorem wit_ElapsedIsRightAcrossWrap :
    let s : State := { State.reset with waitT0 := 0xFFFFFFF0, tick := 9 }
    s.waitT0 < s.cfg.tickMod ∧ 25 < s.cfg.tickMod ∧ s.tick = (s.waitT0 + 25) % s.cfg.tickMod := by decide
theorem wit_ValidateTestsFramingThenParity :
    ((0x7FF#11).getLsbD 0 = true ∧ (0x000#11).getLsbD 10 = false) ∧
    ((0x600#11).getLsbD 0 = false ∧ (0x600#11).getLsbD 10 = true ∧
      (0x600#11).getLsbD 9 ≠ (xor8 ((0x600#11).extractLsb' 1 8) ^^ State.reset.cfg.parityOdd)) ∧
    ((0x5FE#11).getLsbD 0 = false ∧ (0x5FE#11).getLsbD 10 = true ∧
      (0x5FE#11).getLsbD 9 = (xor8 ((0x5FE#11).extractLsb' 1 8) ^^ State.reset.cfg.parityOdd)) := by decide
theorem wit_CodecRoundTrip : validateFrame Config.vectors 0x5FE#11 = some 0xFF#8 := by decide
theorem wit_SingleBitErrorsAreDetected : -- V5
    validateFrame Config.vectors 0x5F4#11 = some 0xFA#8 ∧ validateFrame Config.vectors (0x5F4#11 ^^^ (1#11 <<< 10)) = none ∧
    validateFrame Config.vectors (0x5F4#11 ^^^ (1#11 <<< 1) ^^^ (1#11 <<< 9)) = some 0xFB#8 := by decide
theorem wit_PushStoresOrDropsNewest :
    (two.wr < two.cfg.fifoN ∧ (two.wr + 1) % two.cfg.fifoN ≠ two.rd) ∧ (full.wr + 1) % full.cfg.fifoN = full.rd := by
  decide
theorem wit_ReadByteTakesTheOldest :
    (two.wr ≠ two.rd ∧ two.rd < two.cfg.fifoN ∧ readSlot two.buf two.rd = some 0x08#8) ∧ armed0.wr = armed0.rd := by decide
theorem wit_BytesAvailableComparesCount :
    2 ≤ full.cfg.fifoN ∧ full.wr < full.cfg.fifoN ∧ full.rd < full.cfg.fifoN ∧ full.cfg.fifoN ≤ (6#8).toNat := by decide
theorem wit_ResetBufferZeroesIndices : 0 < full.cfg.fifoN := by decide
theorem wit_BufferRefinesQueue : Inv two ∧ two.queue = 0x08#8 :: [0x05#8] ∧ Inv armed0 ∧ armed0.queue = [] :=
  ⟨inv_of_check (by decide), by decide, inv_of_check (by decide), by decide⟩
theorem wit_PushInsideReadIsHarmless : Inv full ∧ full.wr ≠ full.rd := ⟨wit_Inv_full, by decide⟩
theorem wit_SlotAccessFaults :
    (({ State.reset with wr := 6, rd := 2 } : State).cfg.fifoN ≤ 6 ∧ (6 + 1) % State.reset.cfg.fifoN ≠ 2) ∧
    (({ State.reset with rd := 6 } : State).wr ≠ 6 ∧ State.reset.cfg.fifoN ≤ 6) ∧
    (({ State.reset with wr := 1 } : State).wr ≠ State.reset.rd ∧ State.reset.rd < State.reset.cfg.fifoN ∧
      readSlot State.reset.buf State.reset.rd = none) := by decide
theorem wit_ArmReceiveArmsOnce :
    armed0.armed = true ∧ (State.reset.armed = false ∧ State.reset.capOnline = false) ∧
    (({ State.reset with capOnline := true } : State).armed = false ∧
      ({ State.reset with capOnline := true } : State).capOnline = true) := by decide
theorem wit_CaptureBitStoresTheSample :
    ({ armed0 with capCnt := 9 } : State).capCnt.val < 10 ∧ ({ armed0 with capCnt := 10 } : State).capCnt.val = 10 := by
  decide
theorem wit_CaptureBitAlwaysCompletes :
    Inv { armed0 with capCnt := 10 } ∧ ({ armed0 with capCnt := 10 } : State).armed = true :=
  ⟨inv_of_check (by decide), rfl⟩
theorem wit_OnCaptureCompletePushesValidByte :
    (two.armed = true ∧ two.capOnline = true ∧ two.wr < two.cfg.fifoN ∧
      validateFrame two.cfg 0x5F4#11 = some 0xFA#8 ∧ (two.wr + 1) % two.cfg.fifoN ≠ two.rd) ∧
    (full.armed = true ∧ full.capOnline = true ∧ full.wr < full.cfg.fifoN ∧
      validateFrame full.cfg 0x62A#11 = some 0x15#8 ∧ (full.wr + 1) % full.cfg.fifoN = full.rd) ∧
    validateFrame two.cfg 0x682#11 = none := by decide
theorem wit_OnCaptureErrorDiscardsTheAttempt :
    let s := scheduled { armed0 with capCnt := 7 } .captureError
    s.armed = true ∧ s.capOnline = true ∧ s.cfg.wf = true ∧ s.schedule = [.captureError] := by decide
theorem wit_DeviceFrameReachesTheQueue :
    let s : State := { two with schedule := framePulses 0x5F4#11 ++ [] }
    Inv s ∧ s.armed = true ∧ s.capCnt = 0 ∧ s.dClk = .released ∧ s.schedule = framePulses 0x5F4#11 ++ [] :=
  ⟨inv_of_check (by decide), rfl, rfl, rfl, rfl⟩
theorem wit_SendByteLatchesAndTearsDown : two.txPhase = .idle ∧ two.ackPhase = .idle := by decide
theorem wit_TransmitStepTable :
    ({ Config.vectors with txExtraWaits := true } : Config).txExtraWaits = true ∧
    Config.vectors.txLast < 36 ∧ ({ Config.vectors with txExtraWaits := true } : Config).txLast < 38 := by decide
theorem wit_TransmitPinAndHoldSteps :
    (∀ i ∈ [1, 2, 4, 6, 12], (sending Config.vectors 0xF4#8 i false).txPhase = .at i) ∧
    txAction Config.vectors 0xF4#8 1 = some (.pin (.driveLow .clock)) ∧
    txAction Config.vectors 0xF4#8 4 = some (.pin (.release .clock)) ∧
    txAction Config.vectors 0xF4#8 6 = some (.pin (.driveLow .data)) ∧
    txAction Config.vectors 0xF4#8 12 = some (.pin (.release .data)) ∧
    txAction Config.vectors 0xF4#8 2 = some .hold := by decide
theorem wit_WaitClkSeesTimesOutOrGoesRound :
    State.reset.waiting = false ∧
    (({ State.reset with waiting := true } : State).waiting = true ∧ State.reset.clk = .high) ∧
    (({ State.reset with waiting := true, tick := 25 } : State).clk ≠ .low ∧
      State.reset.cfg.tClkWait ≤ ({ State.reset with waiting := true, tick := 25 } : State).elapsed) ∧
    ({ State.reset with waiting := true, tick := 24 } : State).elapsed < State.reset.cfg.tClkWait := by decide
theorem wit_WaitIdleSeesTimesOutOrGoesRound :
    State.reset.waiting = false ∧ (State.reset.clk = .high ∧ State.reset.data = .high) ∧
    (({ State.reset with waiting := true, dData := .low, tick := 25 } : State).data = .low ∧
      State.reset.cfg.tIdle ≤ ({ State.reset with waiting := true, dData := .low, tick := 25 } : State).elapsed) ∧
    ({ State.reset with waiting := true, dData := .low, tick := 24 } : State).elapsed < State.reset.cfg.tIdle := by decide
theorem wit_TimeoutsDoNotStopTheSequence_clk :
    let s : State := { sending Config.vectors 0xF4#8 5 true with tick := 25 }
    s.txPhase = .at 5 ∧ txAction s.cfg s.txByte 5 = some (.waitClk .low) ∧ s.waiting = true ∧ s.clk ≠ .low ∧
      s.cfg.tClkWait ≤ s.elapsed ∧ ({ s with tick := 24 } : State).elapsed < s.cfg.tClkWait := by decide
theorem wit_TimeoutsDoNotStopTheSequence_idle :
    let s := sending Config.vectors 0xF4#8 35 true
    s.txPhase = .at 35 ∧ txAction s.cfg s.txByte 35 = some .waitIdle ∧ s.waiting = true ∧ s.clk = .high ∧
      s.data = .high := by decide
theorem wit_TransmissionFreezesTheReceivePath :
    let s := scheduled (sending Config.vectors 0xF4#8 6 false) (.device .low .low)
    Inv s ∧ s.txPhase ≠ .idle ∧ ∃ t, step s = .next t := ⟨inv_of_check (by decide), by decide, _, next_of (by rfl)⟩
theorem wit_SendByteReturnState :
    let s := scheduled (sending Config.vectors 0xF4#8 35 true) .foreground
    Inv s ∧ s.txPhase ≠ .idle ∧ ∃ t, step s = .next t ∧ t.txPhase = .idle :=
  ⟨inv_of_check (by decide), by decide, _, next_of (by rfl), by decide⟩
theorem wit_SendByteAlwaysReturns :
    let s : State := { two with program := [cmdWord 4#4 0xF4#8], schedule := rounds 25 (List.replicate 61 []) }
    Inv s ∧ s.txPhase = .idle ∧ s.ackPhase = .idle ∧ s.program = [cmdWord 4#4 0xF4#8] ∧ s.cfg.tClkWait ≤ 25 ∧
      s.cfg.tIdle ≤ 25 ∧ 25 < s.cfg.tickMod ∧ 61 ≤ (List.replicate 61 ([] : List (Drive × Drive))).length ∧
      s.schedule = rounds 25 (List.replicate 61 []) :=
  ⟨inv_of_check (by decide), rfl, rfl, rfl, by decide, by decide, by decide, by decide, rfl⟩
theorem wit_GetAckSteps :
    State.reset.txPhase = .idle ∧ State.reset.ackPhase = .idle ∧ (acking .g2).ackPhase = .g2 ∧
    (({ acking .g3 with armed := false } : State).armed = false ∧ (acking .g3).capOnline = true) ∧
    1 ≤ (acking .g5).count ∧
    (({ armed0 with ackPhase := .g5, tick := 25 } : State).count = 0 ∧
      armed0.cfg.tAck ≤ ({ armed0 with ackPhase := .g5, tick := 25 } : State).elapsed ∧
      ({ armed0 with ackPhase := .g5, tick := 24 } : State).elapsed < armed0.cfg.tAck) ∧
    ((acking .g6).wr ≠ (acking .g6).rd ∧ (acking .g6).rd < (acking .g6).cfg.fifoN ∧
      readSlot (acking .g6).buf (acking .g6).rd = some 0xFA#8) ∧
    (0xFA#8 = (acking (.g7 0xFA#8)).cfg.ackCode ∧ 0xFC#8 ≠ (acking (.g7 0xFC#8)).cfg.ackCode) := by decide
theorem wit_GetAckResultByCase_byte :
    let s : State := { acking .g5 with schedule := [.foreground, .foreground, .foreground] }
    Inv s ∧ s.ackPhase = .g5 ∧ s.queue = 0xFA#8 :: [] ∧ s.schedule = [.foreground, .foreground, .foreground] :=
  ⟨inv_of_check (by decide), rfl, by decide, rfl⟩
theorem wit_GetAckResultByCase_timeout :
    let s : State := { scheduled armed0 .foreground with ackPhase := .g5, tick := 25 }
    Inv s ∧ s.ackPhase = .g5 ∧ s.queue = [] ∧ s.cfg.tAck ≤ s.elapsed ∧ s.schedule = [.foreground] :=
  ⟨inv_of_check (by decide), rfl, by decide, by decide, rfl⟩
theorem wit_GetAckAlwaysReturns :
    let s : State := { State.reset with program := [0x500#12], schedule := rounds 25 (List.replicate 7 [(.low, .low)]) }
    Inv s ∧ s.txPhase = .idle ∧ s.ackPhase = .idle ∧ s.program = [0x500#12] ∧ s.cfg.tAck ≤ 25 ∧ 25 < s.cfg.tickMod ∧
      7 ≤ (List.replicate 7 [(Drive.low, Drive.low)]).length ∧ s.schedule = rounds 25 (List.replicate 7 [(.low, .low)]) :=
  ⟨inv_of_check (by decide), rfl, rfl, rfl, by decide, by decide, by decide, rfl⟩
theorem wit_SecondBlockingCallRefused :
    ((acking .g5).txPhase = .idle ∧ (acking .g5).ackPhase ≠ .idle) ∧
    ((sending Config.vectors 0xF4#8 5 true).txPhase = .at 5 ∧ 0x00#8 ≠ (sending Config.vectors 0xF4#8 5 true).txByte) ∧
    ((sending Config.vectors 0xF4#8 36 true).txPhase = .at 36 ∧ Config.vectors.txLast < 36) := by decide
theorem wit_ErrorKindsHaveTheirCause :
    raises (.validate 0x7FF#11) State.reset = some .framingError ∧
    raises (.captureBit .high) { armed0 with capCnt := 10, capSr := 0x282#11 } = some .parityError ∧
    raises .onCaptureError armed0 = some .captureError ∧ raises (.push 0#8) full = some .overflow ∧
    raises (.sendByte 0xF4#8) { sending Config.vectors 0xF4#8 5 true with tick := 25 } = some .clkTimeout ∧
    raises .waitIdle { State.reset with waiting := true, dData := .low, tick := 25 } = some .idleTimeout ∧
    raises .getAck { armed0 with ackPhase := .g5, tick := 25 } = some .ackTimeout ∧
    raises .getAck (acking (.g7 0xFC#8)) = some .ackWrong ∧ raises .readByte armed0 = some .noData := by decide
theorem wit_ResultWordsFollowTheTable :
    (let s := scheduled (sending Config.vectors 0xF4#8 35 true) .foreground;
      Inv s ∧ s.txPhase ≠ .idle ∧ ∃ t, step s = .next t ∧ t.txPhase = .idle) ∧
    ((acking (.g7 0xFA#8)).txPhase = .idle ∧ (acking (.g7 0xFA#8)).ackPhase ≠ .idle ∧
      ∃ t, exec .getAck (acking (.g7 0xFA#8)) = .next t ∧ t.ackPhase = .idle) ∧
    (two.wr ≠ two.rd ∧ two.rd < two.cfg.fifoN ∧ readSlot two.buf two.rd = some 0x08#8) :=
  ⟨wit_SendByteReturnState, ⟨rfl, by decide, _, next_of (by rfl), by decide⟩, by decide⟩
theorem wit_TimeoutsDoNotStopTheSequence_entry :
    let s := sending Config.vectors 0xF4#8 5 false
    s.txPhase = .at 5 ∧ isWaitPhase s.cfg s.txByte 5 = true ∧ s.waiting = false := by decide
theorem wit_TimeoutsDoNotStopTheSequence_idle_round :
    let s : State := { sending Config.vectors 0xF4#8 35 true with dData := .low, tick := 24 }
    s.txPhase = .at 35 ∧ txAction s.cfg s.txByte 35 = some .waitIdle ∧ s.waiting = true ∧ s.data = .low ∧
      s.elapsed < s.cfg.tIdle := by decide
theorem wit_GetAckSteps_empty : (acking .g6).txPhase = .idle ∧ ({ acking .g6 with rd := 1 } : State).wr = 1 := by decide
theorem wit_SlotAccessFaults_get_ack :
    (({ acking .g6 with rd := 6 } : State).wr ≠ 6 ∧ (acking .g6).cfg.fifoN ≤ 6) ∧
    (({ acking .g6 with wr := 2, rd := 1 } : State).wr ≠ 1 ∧ 1 < (acking .g6).cfg.fifoN ∧
      readSlot (acking .g6).buf 1 = none) ∧
    validateFrame armed0.cfg 0x5F4#11 = some 0xFA#8 := by decide
theorem wit_CommandsRunInTheForeground : decodeCmd 0x400#12 = .ok (.sendByte 0#8) := by decide

/-- Does a run end with the call returned and the program used up? -/
def returned (n : Nat) (s : State) : Bool :=
  match Host.Core.run Sys2Proof.core n s with
  | .next t => decide (t.txPhase = .idle) && decide (t.program = [])
  | .fault _ => false
  | .refused _ => false

theorem runs_of_returned {n : Nat} {s : State} (h : returned n s = true) :
    ∃ t, Runs n s t ∧ t.txPhase = .idle ∧ t.program = [] := by
  unfold returned at h
  split at h
  · next t ht =>
    simp only [Bool.and_eq_true, decide_eq_true_eq] at h
    exact ⟨t, ht, h⟩
  · cases h
  · cases h

/-- A `send_byte` whose every wait is over at its first pass: the device holds the clock low or lets it go in time. -/
def quickSend : State :=
  { two with
    program := [cmdWord 4#4 0xF4#8]
    schedule := List.replicate 5 .foreground ++
      (List.replicate 9 [.device .low .released, .foreground, .foreground, .foreground, .device .released .released,
        .foreground, .foreground]).flatten ++
      [.foreground, .device .low .released, .foreground, .foreground, .device .released .released, .foreground,
        .foreground, .foreground, .foreground] }

/-- One tick before each pass, and the device and the capture unit at work. -/
def slowGap : List Event := [.device .low .low, .captureError, .tick 1, .device .released .released]

theorem wit_CallsReturnIfTheTickIsFair :
    let s := sending Config.vectors 0xF4#8 5 true
    Inv s ∧ s.call ≠ none ∧ OthersOnly (fun _ => slowGap) ∧ TickFair (fun _ => slowGap) ∧
      PolledInTime s.cfg fun _ => slowGap :=
  ⟨inv_of_check (by decide), by decide, fun _ => (by decide : ∀ e ∈ slowGap, e ≠ .foreground),
    fun i => ⟨i, Nat.le_refl i, (by decide : 1 ≤ ticksIn slowGap)⟩,
    fun _ => (by decide : ticksIn slowGap + 25 ≤ 2 ^ 32 ∧ ticksIn slowGap + 25 ≤ 2 ^ 32 ∧ ticksIn slowGap + 25 ≤ 2 ^ 32)⟩
theorem wit_CallsReturnIfTheTickIsFair_get_ack :
    let s := { armed0 with ackPhase := .g5 }
    Inv s ∧ s.call ≠ none ∧ s.txPhase = .idle := ⟨inv_of_check (by decide), by decide, rfl⟩
theorem wit_CallsReturnIfTheTickIsFair_widest : -- the boundary: 256 - 25 ticks between two passes
    PolledInTime { Config.vectors with tickW := 8 } fun _ => [.tick 231] :=
  fun _ => (by decide : 231 + 25 ≤ 2 ^ 8 ∧ 231 + 25 ≤ 2 ^ 8 ∧ 231 + 25 ≤ 2 ^ 8)
theorem wit_StillWaiting_clk :
    let s : State := { sending Config.vectors 0xF4#8 5 true with tick := 24 }
    Inv s ∧ StillWaiting s := ⟨inv_of_check (by decide), .clk 5 .low rfl (by decide) rfl (by decide) (by decide)⟩
theorem wit_StillWaiting_idle :
    let s : State := { sending Config.vectors 0xF4#8 35 true with dData := .low, tick := 24 }
    Inv s ∧ StillWaiting s := ⟨inv_of_check (by decide), .idle 35 rfl (by decide) rfl (by decide) (by decide)⟩
theorem wit_StillWaiting_ack :
    let s : State := { armed0 with ackPhase := .g5, tick := 24 }
    Inv s ∧ StillWaiting s := ⟨inv_of_check (by decide), .ack rfl rfl (by decide) (by decide)⟩

theorem wit_SendBytePinsAreTheFrame :
    Inv quickSend ∧ quickSend.txPhase = .idle ∧ quickSend.ackPhase = .idle ∧ quickSend.program = [cmdWord 4#4 0xF4#8] ∧
      ∃ t, Runs 77 quickSend t ∧ t.txPhase = .idle ∧ t.program = [] :=
  ⟨inv_of_check (by decide), rfl, rfl, rfl, runs_of_returned (by decide +kernel)⟩

end Sys2Proof.Tests
end

/-! PROOFS, part 1: how each step reads in each situation, one equation a case, and which situations there are. -/

namespace Sys2Proof.Machine

/-! ### The step table of `send_byte` -/

theorem wireSlot_frame {i : Nat} (h : 4 ≤ i) (h' : i ≤ 32) : wireSlot i = some ((i - 4) / 3) := by
  simp [wireSlot, h', show ¬i ≤ 3 by omega]

theorem wireSlot_stop {i : Nat} (h : 33 ≤ i) : wireSlot i = some 10 := by
  simp [wireSlot, show ¬i ≤ 3 by omega, show ¬i ≤ 32 by omega]

/-- The slot on the wire changes only where a row sets the data line: at phases 3, 30, 32 and at `6 + 3k`. -/
theorem wireSlot_succ {i : Nat} (h : (5 ≤ i ∧ i ≤ 31 ∧ (i - 5) % 3 ≠ 1) ∨ 33 ≤ i) :
    wireSlot (i + 1) = wireSlot i := by
  rcases h with ⟨h5, h31, hr⟩ | h33
  · rw [wireSlot_frame (by omega) (by omega), wireSlot_frame (by omega) (by omega)]
    congr 1; omega
  · rw [wireSlot_stop (by omega), wireSlot_stop h33]

theorem txLast_ge (c : Config) : 35 ≤ c.txLast := by unfold Config.txLast; split <;> omega

/-- The step table of 43_link_transmit.md R201 by kind of row; a clock wait leaves the slot on the wire as it is. -/
inductive TxRow (c : Config) (b : Byte) : Nat → TxAction → Prop
  | teardown : TxRow c b 0 .teardown
  | clockLow : TxRow c b 1 (.pin (.driveLow .clock))
  | hold : TxRow c b 2 .hold
  | startBit : TxRow c b 3 (.pin (.driveLow .data))
  | clockFree : TxRow c b 4 (.pin (.release .clock))
  | dataBit (k : Nat) (hk : k < 8) : TxRow c b (6 + 3 * k) (.pin (setDataAction (b.getLsbD k)))
  | parityBit : TxRow c b 30 (.pin (setDataAction (parityBit c b)))
  | stopBit : TxRow c b 32 (.pin (.release .data))
  | clkWait {i : Nat} {l : Level} (first : 5 ≤ i) (last : i < c.txLast) (slot : wireSlot (i + 1) = wireSlot i) :
      TxRow c b i (.waitClk l)
  | idleWait : TxRow c b c.txLast .waitIdle

/-- Every row that the table has is of one of these kinds. -/
theorem txAction_row {c : Config} {b : Byte} {i : Nat} {a : TxAction} (h : txAction c b i = some a) :
    TxRow c b i a := by
  have hlast := txLast_ge c
  have wait {l : Level} (h5 : 5 ≤ i) (h34 : i ≤ 34) (hi : (5 ≤ i ∧ i ≤ 31 ∧ (i - 5) % 3 ≠ 1) ∨ 33 ≤ i) :
      TxRow c b i (.waitClk l) := .clkWait h5 (by omega) (wireSlot_succ hi)
  unfold txAction at h
  obtain ⟨rfl, h⟩ | ⟨_, h⟩ := ite_eq_iff.1 h
  · cases h; exact .teardown
  obtain ⟨rfl, h⟩ | ⟨_, h⟩ := ite_eq_iff.1 h
  · cases h; exact .clockLow
  obtain ⟨rfl, h⟩ | ⟨_, h⟩ := ite_eq_iff.1 h
  · cases h; exact .hold
  obtain ⟨rfl, h⟩ | ⟨_, h⟩ := ite_eq_iff.1 h
  · cases h; exact .startBit
  obtain ⟨rfl, h⟩ | ⟨_, h⟩ := ite_eq_iff.1 h
  · cases h; exact .clockFree
  obtain ⟨_, h⟩ | ⟨_, h⟩ := ite_eq_iff.1 h
  · obtain ⟨_, h⟩ | ⟨_, h⟩ := ite_eq_iff.1 h
    · cases h; exact wait (by omega) (by omega) (.inl (by omega))
    obtain ⟨_, h⟩ | ⟨_, h⟩ := ite_eq_iff.1 h
    · cases h
      have row := TxRow.dataBit (c := c) (b := b) ((i - 5) / 3) (by omega)
      rwa [show 6 + 3 * ((i - 5) / 3) = i by omega] at row
    · cases h; exact wait (by omega) (by omega) (.inl (by omega))
  obtain ⟨_, h⟩ | ⟨_, h⟩ := ite_eq_iff.1 h
  · cases h; exact wait (by omega) (by omega) (.inl (by omega))
  obtain ⟨rfl, h⟩ | ⟨_, h⟩ := ite_eq_iff.1 h
  · cases h; exact .parityBit
  obtain ⟨_, h⟩ | ⟨_, h⟩ := ite_eq_iff.1 h
  · cases h; exact wait (by omega) (by omega) (.inl (by omega))
  obtain ⟨rfl, h⟩ | ⟨_, h⟩ := ite_eq_iff.1 h
  · cases h; exact .stopBit
  obtain ⟨_, h⟩ | ⟨_, h⟩ := ite_eq_iff.1 h
  · cases h; exact wait (by omega) (by omega) (.inr (by omega))
  obtain ⟨_, h⟩ | ⟨_, h⟩ := ite_eq_iff.1 h
  · cases h; exact wait (by omega) (by omega) (.inr (by omega))
  obtain ⟨hx, h⟩ | ⟨hx, h⟩ := ite_eq_iff.1 h
  · have h37 : c.txLast = 37 := if_pos hx
    obtain ⟨_, h⟩ | ⟨_, h⟩ := ite_eq_iff.1 h
    · cases h; exact .clkWait (by omega) (by omega) (wireSlot_succ (.inr (by omega)))
    obtain ⟨_, h⟩ | ⟨_, h⟩ := ite_eq_iff.1 h
    · cases h; exact .clkWait (by omega) (by omega) (wireSlot_succ (.inr (by omega)))
    obtain ⟨hi, h⟩ | ⟨_, h⟩ := ite_eq_iff.1 h
    · cases h; rw [hi, ← h37]; exact .idleWait
    · cases h
  · obtain ⟨hi, h⟩ | ⟨_, h⟩ := ite_eq_iff.1 h
    · cases h; rw [hi, ← show c.txLast = 35 from if_neg hx]; exact .idleWait
    · cases h

theorem TxRow.phase_le {c : Config} {b : Byte} {i : Nat} {a : TxAction} (h : TxRow c b i a) : i ≤ c.txLast := by
  have hlast := txLast_ge c
  cases h <;> omega

/-- The table has no row above `TX_LAST` (10_state.md R30). -/
theorem txAction_none {c : Config} {i : Nat} (b : Byte) (h : c.txLast < i) : txAction c b i = none := by
  cases ha : txAction c b i with
  | none => rfl
  | some a => exact absurd (txAction_row ha).phase_le (Nat.not_le.2 h)

/-- The table has a row for every phase up to `TX_LAST`. -/
theorem txAction_some {c : Config} {i : Nat} (b : Byte) (h : i ≤ c.txLast) : ∃ a, txAction c b i = some a := by
  refine Option.ne_none_iff_exists'.1 fun hn => ?_
  simp only [txAction, ite_eq_iff, reduceCtorEq, and_false, false_or, and_true] at hn
  by_cases hx : c.txExtraWaits = true
  · have h37 : c.txLast = 37 := if_pos hx
    simp only [hx, true_and, not_true_eq_false, false_and, or_false] at hn
    omega
  · have h35 : c.txLast = 35 := if_neg hx
    simp only [hx, not_false_eq_true, true_and, Bool.false_eq_true, false_and, false_or] at hn
    omega

section Rows

variable {s : State} {i : Nat}

theorem txStep_teardown (h : txAction s.cfg s.txByte i = some .teardown) :
    txStep i s = .next (s.teardown.txNext i) := by simp [txStep, h]

theorem txStep_pin {a : PinAction} (h : txAction s.cfg s.txByte i = some (.pin a)) :
    txStep i s = .next ((s.pin a).txNext i) := by simp [txStep, h]

theorem txStep_hold (h : txAction s.cfg s.txByte i = some .hold) : txStep i s = .next (s.txNext i) := by
  simp [txStep, h]

theorem txStep_waitClk {l : Level} (h : txAction s.cfg s.txByte i = some (.waitClk l)) :
    txStep i s = .next (afterClkWait i (s.waitClkStep l)) := by simp [txStep, h]

theorem txStep_waitIdle (h : txAction s.cfg s.txByte i = some .waitIdle) :
    txStep i s = .next (afterIdleWait s.waitIdleStep) := by simp [txStep, h]

theorem txStep_none (h : txAction s.cfg s.txByte i = none) : txStep i s = .fault (.txPhaseOutOfTable i) := by
  simp [txStep, h]

/-- A clock wait's entry. -/
theorem afterClkWait_entry (l : Level) (h : s.waiting = false) :
    afterClkWait i (s.waitClkStep l) = { s with waitT0 := s.tick, waiting := true } := by
  rw [State.waitClkStep, waitStep_entry _ _ h]; rfl

/-- A clock wait going round. -/
theorem afterClkWait_again {l : Level} (h : s.waiting = true) (hn : ¬(s.clk = l ∨ s.cfg.tClkWait ≤ s.elapsed)) :
    afterClkWait i (s.waitClkStep l) = s := by
  obtain ⟨hl, ht⟩ := not_or.1 hn
  rw [State.waitClkStep, decide_eq_false hl, waitStep_again h (Nat.not_le.1 ht)]; rfl

/-- A clock wait that is over, the level seen or the time run out. -/
theorem afterClkWait_over {l : Level} (h : s.waiting = true) (ho : s.clk = l ∨ s.cfg.tClkWait ≤ s.elapsed) :
    afterClkWait i (s.waitClkStep l) = { s with waiting := false, txPhase := .at (i + 1) } := by
  rcases afterClkWait_cases i l s with ⟨hw, -⟩ | ⟨-, hl, ht, -⟩ | ⟨-, -, e⟩
  · rw [h] at hw; cases hw
  · exact absurd ho (not_or.2 ⟨hl, Nat.not_le.2 ht⟩)
  · exact e

/-- The idle wait's entry. -/
theorem afterIdleWait_entry (h : s.waiting = false) :
    afterIdleWait s.waitIdleStep = { s with waitT0 := s.tick, waiting := true } := by
  rw [State.waitIdleStep, waitStep_entry _ _ h]; rfl

/-- The idle wait going round. -/
theorem afterIdleWait_again (h : s.waiting = true)
    (hn : ¬((s.clk = .high ∧ s.data = .high) ∨ s.cfg.tIdle ≤ s.elapsed)) : afterIdleWait s.waitIdleStep = s := by
  rcases afterIdleWait_cases s with ⟨hw, -⟩ | ⟨-, -, -, e⟩ | ⟨-, ho, -⟩
  · rw [h] at hw; cases hw
  · exact e
  · exact absurd ho hn

/-- The idle wait that is over, both lines seen high or the time run out. -/
theorem afterIdleWait_over (h : s.waiting = true)
    (ho : (s.clk = .high ∧ s.data = .high) ∨ s.cfg.tIdle ≤ s.elapsed) :
    afterIdleWait s.waitIdleStep = { s with waiting := false, txPhase := .idle, ret := .done } := by
  rcases afterIdleWait_cases s with ⟨hw, -⟩ | ⟨-, hl, ht, -⟩ | ⟨-, -, e⟩
  · rw [h] at hw; cases hw
  · exact absurd ho (not_or.2 ⟨hl, Nat.not_le.2 ht⟩)
  · exact e

end Rows

/-! ### The foreground -/

/-- A configuration outside 00_scope.md R6 is refused (93_implementation_defined.md U16). -/
theorem step_unsupported {s : State} (hc : s.cfg.wf = false) : step s = .refused .unsupportedConfiguration := by
  simp [step, hc]

/-- With nothing scheduled nothing happens (70_reset_and_hazards.md R311). -/
theorem step_unscheduled {s : State} (hc : s.cfg.wf = true) (hs : s.schedule = []) : step s = .next s := by
  simp [step, hc, hs]

theorem foregroundStep_of_call {s : State} {i : Instr} (h : s.call = some i) : foregroundStep s = exec i s := by
  simp [foregroundStep, h]

/-- With no call in progress and no word left the foreground does nothing. -/
theorem foregroundStep_quiet {s : State} (hp : s.txPhase = .idle) (ha : s.ackPhase = .idle) (hq : s.program = []) :
    foregroundStep s = .next s := by simp [foregroundStep, State.call, hp, ha, hq]

/-- With no call in progress a word that does not decode is refused. -/
theorem foregroundStep_refused {s : State} {w : CmdWord} {ws : List CmdWord} {e : DecodeError}
    (hp : s.txPhase = .idle) (ha : s.ackPhase = .idle) (hq : s.program = w :: ws) (hd : decodeCmd w = .error e) :
    foregroundStep s = .next { s with program := ws }.refuseCommand := by
  simp [foregroundStep, State.call, hp, ha, hq, hd]

/-- The five situations in which the foreground takes a step. -/
inductive ForegroundCase (s : State) : Prop
  | sending (i : Nat) (phase : s.txPhase = .at i)
  | acking (phase : s.txPhase = .idle) (call : s.ackPhase ≠ .idle)
  | quiet (phase : s.txPhase = .idle) (noCall : s.ackPhase = .idle) (noWord : s.program = [])
  | refused (w : CmdWord) (ws : List CmdWord) (e : DecodeError) (phase : s.txPhase = .idle)
      (noCall : s.ackPhase = .idle) (word : s.program = w :: ws) (bad : decodeCmd w = .error e)
  | command (w : CmdWord) (ws : List CmdWord) (i : Instr) (phase : s.txPhase = .idle)
      (noCall : s.ackPhase = .idle) (word : s.program = w :: ws) (good : decodeCmd w = .ok i)

theorem foregroundCase (s : State) : ForegroundCase s := by
  rcases hp : s.txPhase with _ | i
  · by_cases ha : s.ackPhase = .idle
    · cases hq : s.program with
      | nil => exact .quiet hp ha hq
      | cons w ws =>
        cases hd : decodeCmd w with
        | error e => exact .refused w ws e hp ha hq hd
        | ok i => exact .command w ws i hp ha hq hd
    · exact .acking hp ha
  · exact .sending i hp

/-- `send_byte` from idle: the byte is latched and step 0, the teardown, is taken. -/
theorem execSendByte_start {s : State} (b : Byte) (hp : s.txPhase = .idle) (ha : s.ackPhase = .idle) :
    execSendByte b s =
      .next { s with armed := false, capCnt := 0, capOnline := false, txByte := b, txPhase := .at 1, waiting := false
                     ret := .pending } := by
  simp [execSendByte, hp, ha, txStep, txAction, State.teardown, State.txNext]

/-- `get_ack` from idle: step (g1). -/
theorem execGetAck_start {s : State} (hp : s.txPhase = .idle) (ha : s.ackPhase = .idle) :
    execGetAck s = .next { s with wr := 0, rd := 0, ackPhase := .g2, ret := .pending } := by
  simp [execGetAck, hp, ha, State.emptyBuffer]

theorem execGetAck_g2 {s : State} (hp : s.txPhase = .idle) (ha : s.ackPhase = .g2) :
    execGetAck s = .next { s.restart with ackPhase := .g3 } := by simp [execGetAck, hp, ha]

theorem execGetAck_g3 {s : State} (hp : s.txPhase = .idle) (ha : s.ackPhase = .g3) :
    execGetAck s = .next { s.arm with ackPhase := .g4 } := by simp [execGetAck, hp, ha]

theorem execGetAck_g4 {s : State} (hp : s.txPhase = .idle) (ha : s.ackPhase = .g4) :
    execGetAck s = .next { s with waitT0 := s.tick, ackPhase := .g5 } := by simp [execGetAck, hp, ha]

/-- Step (g5) with a byte in the buffer. -/
theorem execGetAck_g5_byte {s : State} (hp : s.txPhase = .idle) (ha : s.ackPhase = .g5) (h : s.hasBytes 1 = true) :
    execGetAck s = .next { s with ackPhase := .g6 } := by simp [execGetAck, hp, ha, h]

/-- Step (g5) with no byte and the time run out. -/
theorem execGetAck_g5_timeout {s : State} (hp : s.txPhase = .idle) (ha : s.ackPhase = .g5)
    (h : s.hasBytes 1 = false) (ht : s.cfg.tAck ≤ s.elapsed) : execGetAck s = .next (s.ackReturn false) := by
  simp [execGetAck, hp, ha, h, ht]

/-- Step (g5) going round. -/
theorem execGetAck_g5_again {s : State} (hp : s.txPhase = .idle) (ha : s.ackPhase = .g5)
    (h : s.hasBytes 1 = false) (ht : s.elapsed < s.cfg.tAck) : execGetAck s = .next s := by
  simp [execGetAck, hp, ha, h, Nat.not_le.2 ht]

/-- Step (g6) with a byte taken from the buffer. -/
theorem execGetAck_g6_byte {s t : State} {v : Byte} (hp : s.txPhase = .idle) (ha : s.ackPhase = .g6)
    (h : popByte s = .ok (some v, t)) : execGetAck s = .next { t with ackPhase := .g7 v } := by
  simp [execGetAck, hp, ha, h]

/-- Step (g6) with the buffer empty. -/
theorem execGetAck_g6_empty {s t : State} (hp : s.txPhase = .idle) (ha : s.ackPhase = .g6)
    (h : popByte s = .ok (none, t)) : execGetAck s = .next (t.ackReturn false) := by
  simp [execGetAck, hp, ha, h]

/-- Step (g6) at a slot that cannot be read. -/
theorem execGetAck_g6_fault {s : State} {f : Fault} (hp : s.txPhase = .idle) (ha : s.ackPhase = .g6)
    (h : popByte s = .error f) : execGetAck s = .fault f := by
  simp [execGetAck, hp, ha, h]

theorem execGetAck_g7 {s : State} {v : Byte} (hp : s.txPhase = .idle) (ha : s.ackPhase = .g7 v) :
    execGetAck s = .next (s.ackReturn (decide (v = s.cfg.ackCode))) := by simp [execGetAck, hp, ha]

theorem execReadByte_of_pop {s t : State} {r : Option Byte} (h : popByte s = .ok (r, t)) :
    execReadByte s = .next { t with ret := .byte r } := by simp [execReadByte, h]

theorem execReadByte_fault {s : State} {f : Fault} (h : popByte s = .error f) : execReadByte s = .fault f := by
  simp [execReadByte, h]

/-! ### The other agents -/

theorem captureEnabled_iff (s : State) : s.captureEnabled = true ↔ s.armed = true ∧ s.capOnline = true := by
  simp [State.captureEnabled]

/-- The device's step samples: the capture unit is enabled and the clock makes a sampling edge. -/
def State.samples (s : State) (clk : Drive) : Bool :=
  s.captureEnabled && isSampleEdge s.cfg.sampleEdge s.clk (lineLevel s.hClk clk)

theorem captureEnabled_of_samples {s : State} {clk : Drive} (h : s.samples clk = true) : s.captureEnabled = true :=
  (Bool.and_eq_true _ _ ▸ h).1

theorem deviceStep_sampled {s : State} {clk : Drive} (data : Drive) (h : s.samples clk = true) :
    deviceStep clk data s = execCaptureBit (lineLevel s.hData data) { s with dClk := clk, dData := data } := if_pos h

theorem deviceStep_unsampled {s : State} {clk : Drive} (data : Drive) (h : s.samples clk = false) :
    deviceStep clk data s = .next { s with dClk := clk, dData := data } := if_neg (Bool.eq_false_iff.1 h)

theorem captureErrorStep_enabled {s : State} (h : s.captureEnabled = true) :
    captureErrorStep s = .next { s with capCnt := 0 } := by
  obtain ⟨ha, ho⟩ := (captureEnabled_iff s).1 h
  rw [captureErrorStep, if_pos h]
  exact congrArg _ (State.rearm_of_enabled (s := { s with capCnt := 0 }) ha ho)

theorem captureErrorStep_disabled {s : State} (h : s.captureEnabled = false) : captureErrorStep s = .next s :=
  if_neg (Bool.eq_false_iff.1 h)

/-- A sample that leaves the frame incomplete. -/
theorem execCaptureBit_store {s : State} (x : Level) (h : s.capCnt.val + 1 < 11) :
    execCaptureBit x s = .next { s with capSr := s.sampled x, capCnt := ⟨s.capCnt.val + 1, h⟩ } := dif_pos h

/-- The 11th sample. -/
theorem execCaptureBit_complete {s : State} (x : Level) (h : ¬s.capCnt.val + 1 < 11) :
    execCaptureBit x s = execOnCaptureComplete (s.sampled x) { s with capSr := s.sampled x, capCnt := 0 } := dif_neg h

theorem execOnCaptureComplete_valid {s : State} {raw : RawFrame} {b : Byte} (h : validateFrame s.cfg raw = some b) :
    execOnCaptureComplete raw s = andThen (pushByte { s with capCnt := 0 } b) fun t => .next t.rearm := by
  simp [execOnCaptureComplete, takeCompletion, h]

theorem execOnCaptureComplete_invalid {s : State} {raw : RawFrame} (h : validateFrame s.cfg raw = none) :
    execOnCaptureComplete raw s = .next ({ s with capCnt := 0 } : State).rearm := by
  simp [execOnCaptureComplete, takeCompletion, h, andThen]

end Sys2Proof.Machine

/-! PROOFS, part 2: every operation keeps the invariant, and every step goes on. -/

namespace Sys2Proof.Machine

theorem Config.fifoN_ge {c : Config} (h : c.wf = true) : 2 ≤ c.fifoN := by
  simp only [Config.wf, Bool.and_eq_true, decide_eq_true_eq] at h; omega

theorem tickMod_pos (c : Config) : 0 < c.tickMod := Nat.two_pow_pos _

/-- What a `get_ack` in progress relies on outlives steps that keep the unit's flags and take no byte. -/
theorem ackReady_mono {s t : State} {p : AckPhase} (h : ackReady s p) (ha : t.armed = s.armed)
    (ho : t.capOnline = s.capOnline) (hc : s.count ≤ t.count) : ackReady t p := by
  cases p with
  | idle => trivial
  | g2 => trivial
  | g3 => exact ⟨ho.trans h.1, ha.trans h.2⟩
  | g4 => exact ha.trans h
  | g5 => exact ha.trans h
  | g6 => exact ⟨ha.trans h.1, h.2.trans hc⟩
  | g7 v => exact ha.trans h

/-- With no `get_ack` in progress there is nothing to be ready for. -/
theorem ackReady_of_idle {s t : State} (h : s.ackPhase = .idle) : ackReady t s.ackPhase := h ▸ trivial

/-- No clause of the invariant speaks of the sample bits, the inputs' drives, the result or what is still to come. -/
theorem Inv.of_environment {s : State} (h : Inv s) (sr : RawFrame) (dc dd : Drive) (r : Ret) (p : List CmdWord)
    (es : List Event) :
    Inv { s with capSr := sr, dClk := dc, dData := dd, ret := r, program := p, schedule := es } :=
  { h with spec := { h.spec with } }

theorem Inv.advanceTick {s : State} (h : Inv s) (k : Nat) : Inv (s.advanceTick k) :=
  { h with spec := { h.spec with }, tick_lt := Nat.mod_lt _ (tickMod_pos _) }

/-! ### The receive buffer -/

theorem Inv.count_lt {s : State} (h : Inv s) : s.count < s.cfg.fifoN :=
  Machine.count_lt s (Nat.lt_of_lt_of_le Nat.two_pos (Config.fifoN_ge h.cfg_wf))

theorem Inv.store {s : State} (h : Inv s) (b : Byte) (hf : s.succIndex s.wr ≠ s.rd) :
    Inv { s with buf := writeSlot s.buf s.wr b, wr := s.succIndex s.wr } := by
  have hN := Config.fifoN_ge h.cfg_wf
  have hw := h.spec.wr_lt
  have hr := h.spec.rd_lt
  have hlt := h.count_lt
  have hfull := mt (full_iff_count s hN hw hr).2 hf
  have hcount : State.count { s with buf := writeSlot s.buf s.wr b, wr := s.succIndex s.wr } = s.count + 1 :=
    count_advance_wr hN hw hr hf rfl rfl rfl
  exact { h with
    spec := { h.spec with
      wr_lt := Nat.mod_lt _ (by omega)
      count_le := by rw [hcount]; show s.count + 1 ≤ s.cfg.fifoN - 1; omega
      queued_written := fun k hk => by
        rw [hcount] at hk
        by_cases hkc : k = s.count
        · show (readSlot (writeSlot s.buf s.wr b) ((s.rd + k) % s.cfg.fifoN)).isSome = true
          rw [hkc, slot_at_count hw hr, readSlot_writeSlot_same]; rfl
        · exact readSlot_writeSlot_isSome b (h.spec.queued_written k (by omega)) }
    buf_wf := writeSlot_wf s.wr b h.buf_wf
    buf_range := writeSlot_range b hw h.buf_range
    ack_ready := ackReady_mono h.ack_ready rfl rfl (by rw [hcount]; exact Nat.le_succ _) }

/-- `push` goes on and keeps the invariant and the capture unit's flags. -/
theorem Inv.pushByte {s : State} (h : Inv s) (b : Byte) :
    ∃ t, pushByte s b = .next t ∧ Inv t ∧ t.armed = s.armed ∧ t.capOnline = s.capOnline := by
  by_cases hf : s.succIndex s.wr = s.rd
  · exact ⟨s, pushByte_full b hf, h, rfl, rfl⟩
  · exact ⟨_, pushByte_store b h.spec.wr_lt hf, h.store b hf, rfl, rfl⟩

/-- Advancing the read index of a buffer that is not empty takes one off the count. -/
theorem count_advance_rd {s : State} (hw : s.wr < s.cfg.fifoN) (hr : s.rd < s.cfg.fifoN) (he : s.wr ≠ s.rd) :
    State.count { s with rd := s.succIndex s.rd } + 1 = s.count := by
  have hs := succIndex_eq s hr
  rw [count_eq s hw hr, count_eq { s with rd := s.succIndex s.rd } hw (Nat.mod_lt _ (by omega))]
  simp only [hs]
  repeat' split
  all_goals omega

/-- Taking the oldest byte keeps the invariant, for a `get_ack` position `p` that asks for no byte. -/
theorem Inv.take {s : State} (h : Inv s) (he : s.wr ≠ s.rd) (p : AckPhase) (hp : s.txPhase = .idle)
    (ha : ackReady { s with rd := s.succIndex s.rd } p) :
    Inv { s with rd := s.succIndex s.rd, ackPhase := p } := by
  have hN := Config.fifoN_ge h.cfg_wf
  have hcount : State.count { s with rd := s.succIndex s.rd, ackPhase := p } + 1 = s.count :=
    count_advance_rd h.spec.wr_lt h.spec.rd_lt he
  exact { h with
    spec := { h.spec with
      rd_lt := Nat.mod_lt _ (by omega)
      count_le := by have := h.spec.count_le; show State.count _ ≤ s.cfg.fifoN - 1; omega
      queued_written := fun k hk => by
        have hq := h.spec.queued_written (k + 1) (by omega)
        rw [show s.rd + (k + 1) = s.rd + 1 + k by omega, ← Nat.mod_add_mod] at hq
        exact hq }
    one_call := absurd hp
    ack_ready := ha }

/-- `read_byte` goes on: the buffer is empty, or the read slot has been written. -/
theorem Inv.popByte {s : State} (h : Inv s) :
    (s.wr = s.rd ∧ popByte s = .ok (none, s)) ∨
    (s.wr ≠ s.rd ∧ ∃ v, popByte s = .ok (some v, { s with rd := s.succIndex s.rd })) := by
  by_cases he : s.wr = s.rd
  · exact .inl ⟨he, popByte_empty he⟩
  · have hc := mt (wr_eq_rd_iff_count s h.spec.wr_lt h.spec.rd_lt).2 he
    have hq := h.spec.queued_written 0 (Nat.pos_of_ne_zero hc)
    rw [Nat.add_zero, Nat.mod_eq_of_lt h.spec.rd_lt] at hq
    obtain ⟨v, hv⟩ := Option.isSome_iff_exists.1 hq
    exact .inr ⟨he, v, popByte_take he h.spec.rd_lt hv⟩

theorem Inv.emptyBuffer {s : State} (h : Inv s) (p : AckPhase) (hp : s.txPhase = .idle)
    (ha : ackReady s.emptyBuffer p) : Inv { s.emptyBuffer with ackPhase := p } := by
  have hN := Config.fifoN_ge h.cfg_wf
  have hcount : State.count { s.emptyBuffer with ackPhase := p } = 0 := by simp [State.count, modSub]
  exact { h with
    spec := { h.spec with
      wr_lt := by show 0 < s.cfg.fifoN; omega
      rd_lt := by show 0 < s.cfg.fifoN; omega
      count_le := hcount ▸ Nat.zero_le _
      queued_written := fun k hk => absurd (hcount ▸ hk) (Nat.not_lt_zero k) }
    one_call := absurd hp
    ack_ready := ha }

/-! ### The capture unit -/

/-- Bringing the unit online, armed or not, with no transmission in progress. -/
theorem Inv.restart {s : State} (h : Inv s) (armed : Bool) (p : AckPhase) (hp : s.txPhase = .idle)
    (ha : ackReady { s.restart with armed := armed } p) : Inv { s.restart with armed := armed, ackPhase := p } :=
  { h with
    spec := { h.spec with
      armed_online := fun _ => rfl
      disarmed_no_frame := fun _ => rfl
      capCnt_le := Nat.zero_le _
      online_quiet := fun _ => ⟨rfl, rfl, hp⟩
      transmit_offline := absurd hp }
    one_call := absurd hp
    clock_pin := by show Drive.released = clockDrive s.txPhase; rw [hp]; rfl
    data_pin := by show Drive.released = wireDrive s.cfg s.txByte s.txPhase; rw [hp]; rfl
    ack_ready := ha }

/-- A `get_ack` position may be set while no transmission is in progress. -/
theorem Inv.setAckPhase {s : State} (h : Inv s) (p : AckPhase) (hp : s.txPhase = .idle) (ha : ackReady s p) :
    Inv { s with ackPhase := p } :=
  { h with spec := { h.spec with }, one_call := absurd hp, ack_ready := ha }

/-- From not armed, `arm_receive` is a restart that arms: an online unit has both pins released already. -/
theorem Inv.arm_of_disarmed {s : State} (h : Inv s) (hr : s.armed = false) :
    s.arm = { s.restart with armed := true } := by
  cases ho : s.capOnline with
  | false => rw [State.arm_of_offline hr ho]; rfl
  | true =>
    obtain ⟨hc, hd, -⟩ := h.spec.online_quiet ho
    rw [State.arm_of_online hr ho, State.restart, ← hc, ← hd.trans hc.symm, ← ho]

theorem Inv.arm {s : State} (h : Inv s) (p : AckPhase) (hp : s.txPhase = .idle) (ha : ackReady s.arm p) :
    Inv { s.arm with ackPhase := p } := by
  cases hr : s.armed with
  | true => rw [State.arm_of_armed hr] at ha ⊢; exact h.setAckPhase p hp ha
  | false => rw [h.arm_of_disarmed hr] at ha ⊢; exact h.restart true p hp ha

/-- Discarding a partial frame (10_state.md R41 I-e). -/
theorem Inv.dropFrame {s : State} (h : Inv s) : Inv { s with capCnt := 0 } :=
  { h with spec := { h.spec with disarmed_no_frame := fun _ => rfl, capCnt_le := Nat.zero_le _ } }

/-- The end of a completion, in the state its event needs. -/
theorem Inv.rearm {s : State} (h : Inv s) (ha : s.armed = true) (ho : s.capOnline = true) : Inv s.rearm :=
  State.rearm_of_enabled ha ho ▸ h.dropFrame

theorem Inv.onCaptureComplete {s : State} (h : Inv s) (ha : s.armed = true) (ho : s.capOnline = true)
    (raw : RawFrame) : ∃ t, execOnCaptureComplete raw s = .next t ∧ Inv t := by
  cases hv : validateFrame s.cfg raw with
  | none => exact ⟨_, execOnCaptureComplete_invalid hv, h.dropFrame.rearm ha ho⟩
  | some b =>
    obtain ⟨t, ht, hi, hta, hto⟩ := h.dropFrame.pushByte b
    refine ⟨t.rearm, ?_, hi.rearm (hta.trans ha) (hto.trans ho)⟩
    rw [execOnCaptureComplete_valid hv, ht]; rfl

theorem Inv.captureBit {s : State} (h : Inv s) (ha : s.armed = true) (ho : s.capOnline = true) (x : Level) :
    ∃ t, execCaptureBit x s = .next t ∧ Inv t := by
  have hs := h.of_environment (s.sampled x) s.dClk s.dData s.ret s.program s.schedule
  by_cases hc : s.capCnt.val + 1 < 11
  · exact ⟨_, execCaptureBit_store x hc, { hs with spec := { hs.spec with
      disarmed_no_frame := fun hd => by rw [ha] at hd; cases hd
      capCnt_le := Nat.le_of_lt_succ hc } }⟩
  · rw [execCaptureBit_complete x hc]
    exact hs.dropFrame.onCaptureComplete ha ho _

theorem Inv.deviceStep {s : State} (h : Inv s) (c d : Drive) : ∃ t, deviceStep c d s = .next t ∧ Inv t := by
  have hd := h.of_environment s.capSr c d s.ret s.program s.schedule
  cases hs : s.samples c with
  | false => exact ⟨_, deviceStep_unsampled d hs, hd⟩
  | true =>
    obtain ⟨ha, ho⟩ := (captureEnabled_iff s).1 (captureEnabled_of_samples hs)
    rw [deviceStep_sampled d hs]
    exact hd.captureBit ha ho _

theorem Inv.captureErrorStep {s : State} (h : Inv s) : ∃ t, captureErrorStep s = .next t ∧ Inv t := by
  cases he : s.captureEnabled with
  | false => exact ⟨s, captureErrorStep_disabled he, h⟩
  | true => exact ⟨_, captureErrorStep_enabled he, h.dropFrame⟩

/-! ### A transmission in progress -/

theorem clockDrive_late {i : Nat} (h : 5 ≤ i) : clockDrive (.at i) = .released := if_neg (by omega)

theorem wireDrive_at {i k : Nat} (c : Config) (b : Byte) (h : wireSlot i = some k) :
    wireDrive c b (.at i) = bitDrive ((encodeFrame c b).getLsbD k) := by simp [wireDrive, h]

theorem wireDrive_same_slot {i j : Nat} (c : Config) (b : Byte) (h : wireSlot j = wireSlot i) :
    wireDrive c b (.at j) = wireDrive c b (.at i) := by simp [wireDrive, h]

theorem pin_setDataAction (s : State) (x : Bool) : s.pin (setDataAction x) = { s with hData := bitDrive x } := by
  cases x <;> rfl

/-- Outside the table's wait phases no wait is in its loop. -/
theorem Inv.not_waiting {s : State} (h : Inv s) {i : Nat} (hp : s.txPhase = .at i)
    (hw : isWaitPhase s.cfg s.txByte i = false) : s.waiting = false := by
  by_contra hn
  obtain ⟨j, hj, hjw⟩ := h.waiting_phase (Bool.eq_true_of_not_eq_false hn)
  rw [hp] at hj; cases hj
  rw [hw] at hjw; cases hjw

section Sending

variable {s : State} {i : Nat}

theorem sending_busy (hp : s.txPhase = .at i) : s.txPhase ≠ .idle := by rw [hp]; exact TxPhase.noConfusion

/-- Going on to the next phase with the drives that the table gives it. -/
theorem Inv.nextPhase (h : Inv s) (hp : s.txPhase = .at i) (hi : i < s.cfg.txLast) {hc hd : Drive} {w : Bool}
    (hclk : hc = clockDrive (.at (i + 1))) (hdata : hd = wireDrive s.cfg s.txByte (.at (i + 1))) (hw : w = false) :
    Inv { s with hClk := hc, hData := hd, waiting := w, txPhase := .at (i + 1) } := by
  obtain ⟨hoff, hdis⟩ := h.spec.transmit_offline (sending_busy hp)
  exact { h with
    spec := { h.spec with
      online_quiet := fun ho => absurd (hoff.symm.trans ho) Bool.false_ne_true
      transmit_offline := fun _ => ⟨hoff, hdis⟩ }
    phase_range := fun j hj => by cases hj; exact ⟨Nat.succ_pos i, hi⟩
    one_call := fun _ => h.one_call (sending_busy hp)
    clock_pin := hclk
    data_pin := hdata
    waiting_phase := fun ht => absurd (hw.symm.trans ht) Bool.false_ne_true }

/-- The row that puts slot `k` of the wire frame on the data line. -/
theorem Inv.wireBit (h : Inv s) (hp : s.txPhase = .at i) (hi : i < s.cfg.txLast) (hw : s.waiting = false)
    (hclk : s.hClk = clockDrive (.at (i + 1))) {k : Nat} {x : Bool} (slot : wireSlot (i + 1) = some k)
    (hx : (encodeFrame s.cfg s.txByte).getLsbD k = x) : Inv ((s.pin (setDataAction x)).txNext i) := by
  rw [pin_setDataAction]
  exact h.nextPhase hp hi hclk (by rw [wireDrive_at _ _ slot, hx]) hw

/-- A row that sets a pin. -/
theorem Inv.pinRow (h : Inv s) (hp : s.txPhase = .at i) {a : PinAction}
    (ha : txAction s.cfg s.txByte i = some (.pin a)) :
    Inv ((s.pin a).txNext i) := by
  have hw := h.not_waiting hp (by simp [isWaitPhase, ha])
  have hlast := txLast_ge s.cfg
  have hc := h.clock_pin
  have hd := h.data_pin
  rw [hp] at hc hd
  cases txAction_row ha with
  | clockLow => exact h.nextPhase hp (by omega) rfl hd hw
  | startBit => exact h.wireBit (x := false) hp (by omega) hw hc rfl (encodeFrame_start _ _)
  | clockFree => exact h.nextPhase hp (by omega) rfl hd hw
  | dataBit k hk =>
    rw [clockDrive_late (by omega)] at hc
    exact h.wireBit hp (by omega) hw (by rw [hc, clockDrive_late (by omega)])
      ((wireSlot_frame (by omega) (by omega)).trans (congrArg some (by omega))) (encodeFrame_data _ _ hk)
  | parityBit => exact h.wireBit hp (by omega) hw hc rfl (encodeFrame_parity _ _)
  | stopBit => exact h.wireBit (x := true) hp (by omega) hw hc rfl (encodeFrame_stop _ _)

/-- The hold of step 2. -/
theorem Inv.holdRow (h : Inv s) (hp : s.txPhase = .at i) (ha : txAction s.cfg s.txByte i = some .hold) :
    Inv (s.txNext i) := by
  have hw := h.not_waiting hp (by simp [isWaitPhase, ha])
  have hlast := txLast_ge s.cfg
  have hc := h.clock_pin
  have hd := h.data_pin
  rw [hp] at hc hd
  cases txAction_row ha
  exact h.nextPhase hp (by omega) hc hd hw

/-- The entry of a wait. -/
theorem Inv.enterWait (h : Inv s) (hp : s.txPhase = .at i) (hw : isWaitPhase s.cfg s.txByte i = true) :
    Inv { s with waitT0 := s.tick, waiting := true } :=
  { h with spec := { h.spec with }, waitT0_lt := h.tick_lt, waiting_phase := fun _ => ⟨i, hp, hw⟩ }

theorem Inv.clkWaitRow (h : Inv s) (hp : s.txPhase = .at i) {l : Level}
    (ha : txAction s.cfg s.txByte i = some (.waitClk l)) : Inv (afterClkWait i (s.waitClkStep l)) := by
  rcases afterClkWait_cases i l s with ⟨-, e⟩ | ⟨-, -, -, e⟩ | ⟨-, -, e⟩ <;> rw [e]
  · exact h.enterWait hp (by simp [isWaitPhase, ha])
  · exact h
  · cases txAction_row ha with
    | clkWait h5 hi slot =>
      refine h.nextPhase hp hi ?_ ?_ rfl
      · rw [h.clock_pin, hp, clockDrive_late h5, clockDrive_late (by omega)]
      · rw [h.data_pin, hp, wireDrive_same_slot _ _ slot]

theorem Inv.idleWaitRow (h : Inv s) (hp : s.txPhase = .at i) (ha : txAction s.cfg s.txByte i = some .waitIdle) :
    Inv (afterIdleWait s.waitIdleStep) := by
  rcases afterIdleWait_cases s with ⟨-, e⟩ | ⟨-, -, -, e⟩ | ⟨-, -, e⟩ <;> rw [e]
  · exact h.enterWait hp (by simp [isWaitPhase, ha])
  · exact h
  · obtain ⟨hoff, hdis⟩ := h.spec.transmit_offline (sending_busy hp)
    have hlast := txLast_ge s.cfg
    have hi : i = s.cfg.txLast := by cases txAction_row ha; rfl
    exact { h with
      spec := { h.spec with
        online_quiet := fun ho => absurd (hoff.symm.trans ho) Bool.false_ne_true
        transmit_offline := absurd rfl }
      phase_range := fun j hj => by cases hj
      one_call := absurd rfl
      clock_pin := by
        show s.hClk = .released
        rw [h.clock_pin, hp, clockDrive_late (by omega)]
      data_pin := by
        show s.hData = .released
        rw [h.data_pin, hp, wireDrive_at _ _ (wireSlot_stop (by omega)), encodeFrame_stop]; rfl
      waiting_phase := fun hw => absurd hw Bool.false_ne_true }

theorem Inv.txStep (h : Inv s) (hp : s.txPhase = .at i) : ∃ t, txStep i s = .next t ∧ Inv t := by
  obtain ⟨h1, hlast⟩ := h.phase_range i hp
  obtain ⟨a, ha⟩ := txAction_some s.txByte hlast
  cases a with
  | teardown => cases txAction_row ha; omega
  | pin a => exact ⟨_, txStep_pin ha, h.pinRow hp ha⟩
  | hold => exact ⟨_, txStep_hold ha, h.holdRow hp ha⟩
  | waitClk l => exact ⟨_, txStep_waitClk ha, h.clkWaitRow hp ha⟩
  | waitIdle => exact ⟨_, txStep_waitIdle ha, h.idleWaitRow hp ha⟩

end Sending

/-! ### The foreground -/

theorem Inv.startSend {s : State} (h : Inv s) (hp : s.txPhase = .idle) (ha : s.ackPhase = .idle) (b : Byte) :
    Inv { s with
      armed := false, capCnt := 0, capOnline := false, txByte := b, txPhase := .at 1, waiting := false
      ret := .pending } :=
  { h with
    spec := { h.spec with
      armed_online := fun ht => absurd ht Bool.false_ne_true
      disarmed_no_frame := fun _ => rfl
      capCnt_le := Nat.zero_le _
      online_quiet := fun ht => absurd ht Bool.false_ne_true
      transmit_offline := fun _ => ⟨rfl, rfl⟩ }
    phase_range := fun j hj => by
      cases hj
      exact ⟨Nat.le_refl 1, Nat.le_trans (by omega) (txLast_ge s.cfg)⟩
    one_call := fun _ => ha
    clock_pin := by show s.hClk = .released; rw [h.clock_pin, hp]; rfl
    data_pin := by show s.hData = .released; rw [h.data_pin, hp]; rfl
    waiting_phase := fun ht => absurd ht Bool.false_ne_true
    ack_ready := ackReady_of_idle ha }

theorem Inv.setRet {s : State} (h : Inv s) (r : Ret) : Inv { s with ret := r } :=
  h.of_environment s.capSr s.dClk s.dData r s.program s.schedule

/-- The end of a `get_ack` call. -/
theorem Inv.ackReturn {s : State} (h : Inv s) (b : Bool) (hp : s.txPhase = .idle) : Inv (s.ackReturn b) :=
  (h.setAckPhase .idle hp trivial).setRet _

theorem hasBytes_one {s : State} (h : s.hasBytes 1 = true) : 1 ≤ s.count := of_decide_eq_true h

theorem Inv.getAckStep {s : State} (h : Inv s) (hp : s.txPhase = .idle) (ha : s.ackPhase ≠ .idle) :
    ∃ t, execGetAck s = .next t ∧ Inv t := by
  have hready := h.ack_ready
  cases hk : s.ackPhase with
  | idle => exact absurd hk ha
  | g2 => exact ⟨_, execGetAck_g2 hp hk, h.restart false .g3 hp ⟨rfl, rfl⟩⟩
  | g3 => exact ⟨_, execGetAck_g3 hp hk, h.arm .g4 hp s.arm_armed⟩
  | g4 =>
    rw [hk] at hready
    have h5 := h.setAckPhase .g5 hp hready
    exact ⟨_, execGetAck_g4 hp hk, { h5 with spec := { h5.spec with }, waitT0_lt := h.tick_lt }⟩
  | g5 =>
    rw [hk] at hready
    cases hb : s.hasBytes 1 with
    | true => exact ⟨_, execGetAck_g5_byte hp hk hb, h.setAckPhase .g6 hp ⟨hready, hasBytes_one hb⟩⟩
    | false =>
      by_cases ht : s.cfg.tAck ≤ s.elapsed
      · exact ⟨_, execGetAck_g5_timeout hp hk hb ht, h.ackReturn false hp⟩
      · exact ⟨s, execGetAck_g5_again hp hk hb (Nat.not_le.1 ht), h⟩
  | g6 =>
    rw [hk] at hready
    obtain ⟨harm, hcount⟩ := hready
    rcases h.popByte with ⟨he, -⟩ | ⟨he, v, hv⟩
    · rw [(wr_eq_rd_iff_count s h.spec.wr_lt h.spec.rd_lt).1 he] at hcount; omega
    · exact ⟨_, execGetAck_g6_byte hp hk hv, h.take he (.g7 v) hp harm⟩
  | g7 v => exact ⟨_, execGetAck_g7 hp hk, h.ackReturn _ hp⟩

theorem Inv.command {s : State} (h : Inv s) {w : CmdWord} {i : Instr} (hp : s.txPhase = .idle)
    (ha : s.ackPhase = .idle) (hd : decodeCmd w = .ok i) : ∃ t, exec i s = .next t ∧ Inv t := by
  rcases decodeCmd_cases hd with ⟨rfl, -⟩ | ⟨n, rfl, -⟩ | ⟨rfl, -⟩ | ⟨b, rfl, -⟩ | ⟨rfl, -⟩
  · exact ⟨_, rfl, (h.arm s.arm.ackPhase hp (ackReady_of_idle (s.arm_ackPhase.trans ha))).setRet _⟩
  · exact ⟨_, rfl, h.setRet _⟩
  · rcases h.popByte with ⟨-, hv⟩ | ⟨he, v, hv⟩
    · exact ⟨_, execReadByte_of_pop hv, h.setRet _⟩
    · exact ⟨_, execReadByte_of_pop hv, (h.take he s.ackPhase hp (ackReady_of_idle ha)).setRet _⟩
  · exact ⟨_, execSendByte_start b hp ha, h.startSend hp ha b⟩
  · exact ⟨_, execGetAck_start hp ha, (h.emptyBuffer .g2 hp trivial).setRet _⟩

theorem Inv.foregroundStep {s : State} (h : Inv s) : ∃ t, foregroundStep s = .next t ∧ Inv t := by
  cases foregroundCase s with
  | sending i hp => rw [foregroundStep_sending hp]; exact h.txStep hp
  | acking hp ha => rw [foregroundStep_acking hp ha]; exact h.getAckStep hp ha
  | quiet hp ha hq => exact ⟨s, foregroundStep_quiet hp ha hq, h⟩
  | refused w ws e hp ha hq hd =>
    exact ⟨_, foregroundStep_refused hp ha hq hd, h.of_environment s.capSr s.dClk s.dData .refused ws s.schedule⟩
  | command w ws i hp ha hq hd =>
    rw [foregroundStep_fetch hp ha hq hd]
    exact (h.of_environment s.capSr s.dClk s.dData s.ret ws s.schedule).command hp ha hd

theorem Inv.agentStep {s : State} (h : Inv s) (e : Event) : ∃ t, agentStep e s = .next t ∧ Inv t := by
  cases e with
  | foreground => exact h.foregroundStep
  | device c d => exact h.deviceStep c d
  | tick k => exact ⟨_, rfl, h.advanceTick k⟩
  | captureError => exact h.captureErrorStep

/-- Settles O12: every agent's step goes on and keeps the invariant, so the scheduled one's does. -/
theorem everyStepIsSafeAndKeepsInv : Obligations.EveryStepIsSafeAndKeepsInv := by
  intro s h
  cases hs : s.schedule with
  | nil => exact ⟨s, step_unscheduled h.cfg_wf hs, h⟩
  | cons e rest =>
    rw [step_scheduled h.cfg_wf hs]
    exact (h.of_environment s.capSr s.dClk s.dData s.ret s.program rest).agentStep e

end Sys2Proof.Machine

/-! PROOFS, part 3: the values that reset leaves unspecified never show. Two states that agree on all the rest are
written `s` and `s.withOpen sr tb w`, so that an operation that uses none of the three takes the same equation. -/

namespace Sys2Proof.Machine

/-- `s` with other values in the three elements that 10_state.md R42 leaves unspecified. -/
def State.withOpen (s : State) (sr : RawFrame) (tb : Byte) (w : Nat) : State :=
  { s with capSr := sr, txByte := tb, waitT0 := w }

theorem AgreeOnWritten.exists_withOpen {s t : State} (h : AgreeOnWritten s t) : ∃ sr tb w, t = s.withOpen sr tb w :=
  ⟨_, _, _, h.rest⟩

/-- If the first of two outcomes goes on, so does the second, and the next states agree again. -/
def SameStep (r r' : Result) : Prop := ∀ s', r = .next s' → ∃ t', r' = .next t' ∧ AgreeOnWritten s' t'

theorem SameStep.next {s t : State} (h : AgreeOnWritten s t) : SameStep (.next s) (.next t) := by
  intro s' hs; cases hs; exact ⟨t, rfl, h⟩

theorem SameStep.fault (f : Fault) (r : Result) : SameStep (.fault f) r := fun _ hs => nomatch hs

theorem SameStep.refused (e : Refusal) (r : Result) : SameStep (.refused e) r := fun _ hs => nomatch hs

theorem SameStep.andThen {r r' : Result} {f : State → Result} (h : SameStep r r')
    (hf : ∀ s t, AgreeOnWritten s t → SameStep (f s) (f t)) : SameStep (andThen r f) (andThen r' f) := by
  cases r with
  | next s =>
    obtain ⟨t, ht, hst⟩ := h s rfl
    rw [ht]
    exact hf s t hst
  | fault f => exact .fault f _
  | refused e => exact .refused e _

section Operations

variable {s s' t : State} {sr : RawFrame} {tb : Byte} {w : Nat}

/-- An operation that writes none of the three values and makes none of them count that did not count before. -/
theorem AgreeOnWritten.keep (h : AgreeOnWritten s (s.withOpen sr tb w))
    (hcnt : s'.capCnt.val ≤ s.capCnt.val := by exact Nat.le_refl _)
    (hphase : s'.txPhase ≠ .idle → s.txPhase ≠ .idle := by exact id)
    (hwait : s'.waiting = true ∨ s'.ackPhase = .g5 → s.waiting = true ∨ s.ackPhase = .g5 := by exact id)
    (hsr : s'.capSr = s.capSr := by rfl) (htb : s'.txByte = s.txByte := by rfl)
    (hw : s'.waitT0 = s.waitT0 := by rfl) : AgreeOnWritten s' (s'.withOpen sr tb w) where
  rest := rfl
  samples i hi := hsr ▸ h.samples i (Nat.lt_of_lt_of_le hi hcnt)
  latch hp := htb ▸ h.latch (hphase hp)
  snapshot hs := hw ▸ h.snapshot (hwait hs)

/-! ### The buffer and the capture unit -/

theorem popByte_withOpen (s : State) (sr : RawFrame) (tb : Byte) (w : Nat) :
    popByte (s.withOpen sr tb w) = (popByte s).map fun r => (r.1, r.2.withOpen sr tb w) := by
  by_cases he : s.wr = s.rd
  · rw [popByte_empty he, popByte_empty (s := s.withOpen sr tb w) he]; rfl
  · by_cases hr : s.rd < s.cfg.fifoN
    · cases hv : readSlot s.buf s.rd with
      | none => rw [popByte_unwritten he hr hv, popByte_unwritten (s := s.withOpen sr tb w) he hr hv]; rfl
      | some v => rw [popByte_take he hr hv, popByte_take (s := s.withOpen sr tb w) he hr hv]; rfl
    · have hr := Nat.not_lt.1 hr
      rw [popByte_range he hr, popByte_range (s := s.withOpen sr tb w) he hr]; rfl

theorem AgreeOnWritten.pushByte (h : AgreeOnWritten s t) (b : Byte) : SameStep (pushByte s b) (pushByte t b) := by
  obtain ⟨sr, tb, w, rfl⟩ := h.exists_withOpen
  by_cases hf : s.succIndex s.wr = s.rd
  · rw [pushByte_full b hf, pushByte_full (s := s.withOpen sr tb w) b hf]; exact .next h
  · by_cases hw : s.wr < s.cfg.fifoN
    · rw [pushByte_store b hw hf, pushByte_store (s := s.withOpen sr tb w) b hw hf]; exact .next h.keep
    · rw [pushByte_fault b (Nat.not_lt.1 hw) hf]; exact .fault _ _

theorem AgreeOnWritten.arm (h : AgreeOnWritten s t) : AgreeOnWritten s.arm t.arm := by
  obtain ⟨sr, tb, w, rfl⟩ := h.exists_withOpen
  cases ha : s.armed with
  | true => rwa [State.arm_of_armed ha, State.arm_of_armed (s := s.withOpen sr tb w) ha]
  | false =>
    cases ho : s.capOnline with
    | true =>
      rw [State.arm_of_online ha ho, State.arm_of_online (s := s.withOpen sr tb w) ha ho]
      exact h.keep (hcnt := Nat.zero_le _)
    | false =>
      rw [State.arm_of_offline ha ho, State.arm_of_offline (s := s.withOpen sr tb w) ha ho]
      exact h.keep (hcnt := Nat.zero_le _)

theorem AgreeOnWritten.rearm (h : AgreeOnWritten s t) : AgreeOnWritten s.rearm t.rearm := by
  obtain ⟨sr, tb, w, rfl⟩ := h.exists_withOpen
  exact AgreeOnWritten.arm (s := { s with armed := false }) h.keep

theorem AgreeOnWritten.dropFrame (h : AgreeOnWritten s t) :
    AgreeOnWritten { s with capCnt := 0 } { t with capCnt := 0 } := by
  obtain ⟨sr, tb, w, rfl⟩ := h.exists_withOpen
  exact h.keep (hcnt := Nat.zero_le _)

theorem AgreeOnWritten.cfg_eq (h : AgreeOnWritten s t) : t.cfg = s.cfg := by
  obtain ⟨sr, tb, w, rfl⟩ := h.exists_withOpen; rfl

theorem AgreeOnWritten.onCaptureComplete (h : AgreeOnWritten s t) (raw : RawFrame) :
    SameStep (execOnCaptureComplete raw s) (execOnCaptureComplete raw t) := by
  cases hv : validateFrame s.cfg raw with
  | none =>
    rw [execOnCaptureComplete_invalid hv, execOnCaptureComplete_invalid (h.cfg_eq ▸ hv)]
    exact .next h.dropFrame.rearm
  | some b =>
    rw [execOnCaptureComplete_valid hv, execOnCaptureComplete_valid (h.cfg_eq ▸ hv)]
    exact (h.dropFrame.pushByte b).andThen fun _ _ h' => .next h'.rearm

/-- After a sample the samples taken agree, the new one among them. -/
theorem AgreeOnWritten.sampled (h : AgreeOnWritten s (s.withOpen sr tb w)) (x : Level) {i : Nat}
    (hi : i < s.capCnt.val + 1) : ((s.withOpen sr tb w).sampled x).getLsbD i = (s.sampled x).getLsbD i := by
  have hn : s.capCnt.val < 11 := s.capCnt.isLt
  show (writeBit sr s.capCnt.val (levelBit x)).getLsbD i = (writeBit s.capSr s.capCnt.val (levelBit x)).getLsbD i
  by_cases he : i = s.capCnt.val
  · rw [he, writeBit_same _ _ hn, writeBit_same _ _ hn]
  · rw [writeBit_other _ _ hn he, writeBit_other _ _ hn he]
    exact h.samples i (by omega)

theorem AgreeOnWritten.captureBit (h : AgreeOnWritten s t) (x : Level) :
    SameStep (execCaptureBit x s) (execCaptureBit x t) := by
  obtain ⟨sr, tb, w, rfl⟩ := h.exists_withOpen
  by_cases hc : s.capCnt.val + 1 < 11
  · rw [execCaptureBit_store x hc, execCaptureBit_store (s := s.withOpen sr tb w) x hc]
    exact .next { rest := rfl, samples := fun i hi => h.sampled x hi, latch := h.latch, snapshot := h.snapshot }
  · have hraw : (s.withOpen sr tb w).sampled x = s.sampled x :=
      BitVec.eq_of_getLsbD_eq fun i hi => h.sampled x (by omega)
    rw [execCaptureBit_complete x hc, execCaptureBit_complete (s := s.withOpen sr tb w) x hc, hraw]
    exact AgreeOnWritten.onCaptureComplete (s := { s with capSr := s.sampled x, capCnt := 0 })
      (t := { s.withOpen sr tb w with capSr := s.sampled x, capCnt := 0 })
      { rest := rfl, samples := fun _ _ => rfl, latch := h.latch, snapshot := h.snapshot } _

theorem AgreeOnWritten.deviceStep (h : AgreeOnWritten s t) (c d : Drive) :
    SameStep (deviceStep c d s) (deviceStep c d t) := by
  obtain ⟨sr, tb, w, rfl⟩ := h.exists_withOpen
  have hd : AgreeOnWritten { s with dClk := c, dData := d } { s.withOpen sr tb w with dClk := c, dData := d } := h.keep
  cases hs : s.samples c with
  | false => rw [deviceStep_unsampled d hs, deviceStep_unsampled (s := s.withOpen sr tb w) d hs]; exact .next hd
  | true => rw [deviceStep_sampled d hs, deviceStep_sampled (s := s.withOpen sr tb w) d hs]; exact hd.captureBit _

theorem AgreeOnWritten.captureErrorStep (h : AgreeOnWritten s t) :
    SameStep (captureErrorStep s) (captureErrorStep t) := by
  have he' : t.captureEnabled = s.captureEnabled := by obtain ⟨sr, tb, w, rfl⟩ := h.exists_withOpen; rfl
  cases he : s.captureEnabled with
  | false => rw [captureErrorStep_disabled he, captureErrorStep_disabled (he'.trans he)]; exact .next h
  | true =>
    rw [captureErrorStep_enabled he, captureErrorStep_enabled (he'.trans he)]
    exact .next h.dropFrame

/-! ### The foreground -/

/-- The entry of a wait writes the snapshot of the tick, whatever stood there. -/
theorem AgreeOnWritten.enterWait (h : AgreeOnWritten s (s.withOpen sr tb w)) :
    AgreeOnWritten { s with waitT0 := s.tick, waiting := true }
      { s.withOpen sr tb w with waitT0 := s.tick, waiting := true } where
  rest := rfl
  samples := h.samples
  latch := h.latch
  snapshot _ := rfl

theorem AgreeOnWritten.clkWait (h : AgreeOnWritten s (s.withOpen sr tb w)) {i : Nat} (hp : s.txPhase = .at i)
    (l : Level) : AgreeOnWritten (afterClkWait i (s.waitClkStep l))
      (afterClkWait i ((s.withOpen sr tb w).waitClkStep l)) := by
  cases hw : s.waiting with
  | false => rw [afterClkWait_entry l hw, afterClkWait_entry (s := s.withOpen sr tb w) l hw]; exact h.enterWait
  | true =>
    obtain rfl : w = s.waitT0 := h.snapshot (.inl hw)
    by_cases ho : s.clk = l ∨ s.cfg.tClkWait ≤ s.elapsed
    · rw [afterClkWait_over hw ho, afterClkWait_over (s := s.withOpen sr tb s.waitT0) hw ho]
      exact h.keep (hphase := fun _ => sending_busy hp) (hwait := fun _ => .inl hw)
    · rw [afterClkWait_again hw ho, afterClkWait_again (s := s.withOpen sr tb s.waitT0) hw ho]; exact h

theorem AgreeOnWritten.idleWait (h : AgreeOnWritten s (s.withOpen sr tb w)) :
    AgreeOnWritten (afterIdleWait s.waitIdleStep) (afterIdleWait (s.withOpen sr tb w).waitIdleStep) := by
  cases hw : s.waiting with
  | false => rw [afterIdleWait_entry hw, afterIdleWait_entry (s := s.withOpen sr tb w) hw]; exact h.enterWait
  | true =>
    obtain rfl : w = s.waitT0 := h.snapshot (.inl hw)
    by_cases ho : (s.clk = .high ∧ s.data = .high) ∨ s.cfg.tIdle ≤ s.elapsed
    · rw [afterIdleWait_over hw ho, afterIdleWait_over (s := s.withOpen sr tb s.waitT0) hw ho]
      exact h.keep (hphase := absurd rfl) (hwait := fun _ => .inl hw)
    · rw [afterIdleWait_again hw ho, afterIdleWait_again (s := s.withOpen sr tb s.waitT0) hw ho]; exact h

theorem AgreeOnWritten.txStep (h : AgreeOnWritten s t) {i : Nat} (hp : s.txPhase = .at i) :
    SameStep (txStep i s) (txStep i t) := by
  obtain ⟨sr, tb, w, rfl⟩ := h.exists_withOpen
  obtain rfl : tb = s.txByte := h.latch (sending_busy hp)
  cases ha : txAction s.cfg s.txByte i with
  | none => rw [txStep_none ha]; exact .fault _ _
  | some a =>
    cases a with
    | teardown =>
      rw [txStep_teardown ha, txStep_teardown (s := s.withOpen sr s.txByte w) ha]
      exact .next (h.keep (hcnt := Nat.zero_le _) (hphase := fun _ => sending_busy hp))
    | pin a =>
      rw [txStep_pin ha, txStep_pin (s := s.withOpen sr s.txByte w) ha]
      rcases a with (_ | _) | (_ | _) <;> exact .next (h.keep (hphase := fun _ => sending_busy hp))
    | hold =>
      rw [txStep_hold ha, txStep_hold (s := s.withOpen sr s.txByte w) ha]
      exact .next (h.keep (hphase := fun _ => sending_busy hp))
    | waitClk l =>
      rw [txStep_waitClk ha, txStep_waitClk (s := s.withOpen sr s.txByte w) ha]
      exact .next (h.clkWait hp l)
    | waitIdle =>
      rw [txStep_waitIdle ha, txStep_waitIdle (s := s.withOpen sr s.txByte w) ha]
      exact .next h.idleWait

/-- Setting the `get_ack` position to anything but the wait loop. -/
theorem AgreeOnWritten.setAckPhase (h : AgreeOnWritten s t) {p : AckPhase} (hp : p ≠ .g5) :
    AgreeOnWritten { s with ackPhase := p } { t with ackPhase := p } := by
  obtain ⟨sr, tb, w, rfl⟩ := h.exists_withOpen
  exact h.keep (hwait := fun hs => hs.imp_right fun h5 => absurd h5 hp)

theorem AgreeOnWritten.setRet (h : AgreeOnWritten s t) (r : Ret) :
    AgreeOnWritten { s with ret := r } { t with ret := r } := by
  obtain ⟨sr, tb, w, rfl⟩ := h.exists_withOpen
  exact h.keep

theorem AgreeOnWritten.ackReturn (h : AgreeOnWritten s t) (b : Bool) :
    AgreeOnWritten (s.ackReturn b) (t.ackReturn b) :=
  (h.setAckPhase (p := .idle) AckPhase.noConfusion).setRet (.bool b)

theorem AgreeOnWritten.setProgram (h : AgreeOnWritten s t) (p : List CmdWord) :
    AgreeOnWritten { s with program := p } { t with program := p } := by
  obtain ⟨sr, tb, w, rfl⟩ := h.exists_withOpen
  exact h.keep

theorem AgreeOnWritten.restart (h : AgreeOnWritten s t) : AgreeOnWritten s.restart t.restart := by
  obtain ⟨sr, tb, w, rfl⟩ := h.exists_withOpen
  exact h.keep (hcnt := Nat.zero_le _)

/-- What `read_byte` leaves behind: the queue's state only. -/
theorem AgreeOnWritten.ofPop (h : AgreeOnWritten s (s.withOpen sr tb w)) {r : Option Byte}
    (hv : popByte s = .ok (r, s')) : AgreeOnWritten s' (s'.withOpen sr tb w) := by
  rcases popByte_cases hv with ⟨-, -, rfl⟩ | ⟨-, -, v, -, -, rfl⟩
  · exact h
  · exact h.keep

theorem AgreeOnWritten.getAck (h : AgreeOnWritten s t) (hp : s.txPhase = .idle) :
    SameStep (execGetAck s) (execGetAck t) := by
  obtain ⟨sr, tb, w, rfl⟩ := h.exists_withOpen
  cases hk : s.ackPhase with
  | idle =>
    rw [execGetAck_start hp hk, execGetAck_start (s := s.withOpen sr tb w) hp hk]
    exact .next (h.keep (hwait := fun hs => hs.imp_right AckPhase.noConfusion))
  | g2 =>
    rw [execGetAck_g2 hp hk, execGetAck_g2 (s := s.withOpen sr tb w) hp hk]
    exact .next (h.restart.setAckPhase AckPhase.noConfusion)
  | g3 =>
    rw [execGetAck_g3 hp hk, execGetAck_g3 (s := s.withOpen sr tb w) hp hk]
    exact .next (h.arm.setAckPhase AckPhase.noConfusion)
  | g4 =>
    rw [execGetAck_g4 hp hk, execGetAck_g4 (s := s.withOpen sr tb w) hp hk]
    exact .next { rest := rfl, samples := h.samples, latch := h.latch, snapshot := fun _ => rfl }
  | g5 =>
    obtain rfl : w = s.waitT0 := h.snapshot (.inr hk)
    cases hb : s.hasBytes 1 with
    | true =>
      rw [execGetAck_g5_byte hp hk hb, execGetAck_g5_byte (s := s.withOpen sr tb s.waitT0) hp hk hb]
      exact .next (h.setAckPhase AckPhase.noConfusion)
    | false =>
      by_cases ht : s.cfg.tAck ≤ s.elapsed
      · rw [execGetAck_g5_timeout hp hk hb ht, execGetAck_g5_timeout (s := s.withOpen sr tb s.waitT0) hp hk hb ht]
        exact .next (h.ackReturn false)
      · have ht := Nat.not_le.1 ht
        rw [execGetAck_g5_again hp hk hb ht, execGetAck_g5_again (s := s.withOpen sr tb s.waitT0) hp hk hb ht]
        exact .next h
  | g6 =>
    have hpop := popByte_withOpen s sr tb w
    cases hv : popByte s with
    | error f => rw [execGetAck_g6_fault hp hk hv]; exact .fault _ _
    | ok r =>
      obtain ⟨_ | v, u⟩ := r <;> rw [hv] at hpop
      · rw [execGetAck_g6_empty hp hk hv, execGetAck_g6_empty (s := s.withOpen sr tb w) hp hk hpop]
        exact .next ((h.ofPop hv).ackReturn false)
      · rw [execGetAck_g6_byte hp hk hv, execGetAck_g6_byte (s := s.withOpen sr tb w) hp hk hpop]
        exact .next ((h.ofPop hv).setAckPhase AckPhase.noConfusion)
  | g7 v =>
    rw [execGetAck_g7 hp hk, execGetAck_g7 (s := s.withOpen sr tb w) hp hk]
    exact .next (h.ackReturn _)

theorem AgreeOnWritten.readByte (h : AgreeOnWritten s t) : SameStep (execReadByte s) (execReadByte t) := by
  obtain ⟨sr, tb, w, rfl⟩ := h.exists_withOpen
  have hpop := popByte_withOpen s sr tb w
  cases hv : popByte s with
  | error f => rw [execReadByte_fault hv]; exact .fault _ _
  | ok r =>
    rw [hv] at hpop
    rw [execReadByte_of_pop hv, execReadByte_of_pop hpop]
    exact .next ((h.ofPop hv).setRet _)

/-- `send_byte` from idle latches its byte, whatever stood there. -/
theorem AgreeOnWritten.startSend (h : AgreeOnWritten s t) (b : Byte) (hp : s.txPhase = .idle)
    (ha : s.ackPhase = .idle) : SameStep (execSendByte b s) (execSendByte b t) := by
  obtain ⟨sr, tb, w, rfl⟩ := h.exists_withOpen
  rw [execSendByte_start b hp ha, execSendByte_start (s := s.withOpen sr tb w) b hp ha]
  exact .next {
    rest := rfl
    samples := fun i hi => absurd hi (Nat.not_lt_zero i)
    latch := fun _ => rfl
    snapshot := fun hs => h.snapshot (hs.imp_left fun hw => absurd hw Bool.false_ne_true) }

theorem AgreeOnWritten.command (h : AgreeOnWritten s t) {c : CmdWord} {i : Instr} (hp : s.txPhase = .idle)
    (ha : s.ackPhase = .idle) (hd : decodeCmd c = .ok i) : SameStep (exec i s) (exec i t) := by
  rcases decodeCmd_cases hd with ⟨rfl, -⟩ | ⟨n, rfl, -⟩ | ⟨rfl, -⟩ | ⟨b, rfl, -⟩ | ⟨rfl, -⟩
  · exact .next (h.arm.setRet .done)
  · obtain ⟨sr, tb, w, rfl⟩ := h.exists_withOpen
    exact .next (h.setRet _)
  · exact h.readByte
  · exact h.startSend b hp ha
  · exact h.getAck hp

theorem AgreeOnWritten.foregroundStep (h : AgreeOnWritten s t) :
    SameStep (foregroundStep s) (foregroundStep t) := by
  obtain ⟨sr, tb, w, rfl⟩ := h.exists_withOpen
  cases foregroundCase s with
  | sending i hp =>
    rw [foregroundStep_sending hp, foregroundStep_sending (s := s.withOpen sr tb w) hp]; exact h.txStep hp
  | acking hp ha =>
    rw [foregroundStep_acking hp ha, foregroundStep_acking (s := s.withOpen sr tb w) hp ha]; exact h.getAck hp
  | quiet hp ha hq =>
    rw [foregroundStep_quiet hp ha hq, foregroundStep_quiet (s := s.withOpen sr tb w) hp ha hq]; exact .next h
  | refused c ws e hp ha hq hd =>
    rw [foregroundStep_refused hp ha hq hd, foregroundStep_refused (s := s.withOpen sr tb w) hp ha hq hd]
    exact .next ((h.setProgram ws).setRet .refused)
  | command c ws i hp ha hq hd =>
    rw [foregroundStep_fetch hp ha hq hd, foregroundStep_fetch (s := s.withOpen sr tb w) hp ha hq hd]
    exact (h.setProgram ws).command hp ha hd

theorem AgreeOnWritten.agentStep (h : AgreeOnWritten s t) (e : Event) : SameStep (agentStep e s) (agentStep e t) := by
  cases e with
  | foreground => exact h.foregroundStep
  | device c d => exact h.deviceStep c d
  | tick k => obtain ⟨sr, tb, w, rfl⟩ := h.exists_withOpen; exact .next h.keep
  | captureError => exact h.captureErrorStep

theorem AgreeOnWritten.step (h : AgreeOnWritten s t) : SameStep (step s) (step t) := by
  obtain ⟨sr, tb, w, rfl⟩ := h.exists_withOpen
  cases hc : s.cfg.wf with
  | false => rw [step_unsupported hc]; exact .refused _ _
  | true =>
    cases hs : s.schedule with
    | nil => rw [step_unscheduled hc hs, step_unscheduled (s := s.withOpen sr tb w) hc hs]; exact .next h
    | cons e rest =>
      rw [step_scheduled hc hs, step_scheduled (s := s.withOpen sr tb w) hc hs]
      exact AgreeOnWritten.agentStep (s := { s with schedule := rest }) h.keep e

end Operations

/-- Settles O16: the scheduled agent's step is the same step from two states that agree. -/
theorem unspecifiedValuesNeverShow : Obligations.UnspecifiedValuesNeverShow :=
  fun _ _ s' h hs => h.step s' hs

end Sys2Proof.Machine

/-! PROOFS, part 4: which agent writes what, the state after reset, and the step rules read off the equations. -/

namespace Sys2Proof.Machine

/-! ### The agents other than the foreground -/

section Frames

variable {s t : State}

theorem pushByte_frame {b : Byte} (h : pushByte s b = .next t) : t = { s with buf := t.buf, wr := t.wr } := by
  rcases pushByte_cases h with ⟨-, rfl⟩ | ⟨-, -, rfl⟩ <;> rfl

/-- A completion in the state its event needs writes the buffer and drops the partial frame; the re-arm shows nowhere
else. -/
theorem execOnCaptureComplete_frame {raw : RawFrame} (ha : s.armed = true) (ho : s.capOnline = true)
    (h : execOnCaptureComplete raw s = .next t) : t = { s with buf := t.buf, wr := t.wr, capCnt := t.capCnt } := by
  cases hv : validateFrame s.cfg raw with
  | none =>
    rw [execOnCaptureComplete_invalid hv, State.rearm_of_enabled (s := { s with capCnt := 0 }) ha ho] at h
    cases h; rfl
  | some b =>
    rw [execOnCaptureComplete_valid hv] at h
    cases hb : pushByte { s with capCnt := 0 } b with
    | next u =>
      have hu := pushByte_frame hb
      have hua : u.armed = true := by rw [hu]; exact ha
      have huo : u.capOnline = true := by rw [hu]; exact ho
      rw [hb, andThen, State.rearm_of_enabled hua huo] at h
      cases h
      rw [hu]
    | fault f => rw [hb] at h; cases h
    | refused e => rw [hb] at h; cases h

theorem execCaptureBit_frame {x : Level} (ha : s.armed = true) (ho : s.capOnline = true)
    (h : execCaptureBit x s = .next t) :
    t = { s with buf := t.buf, wr := t.wr, capCnt := t.capCnt, capSr := t.capSr } := by
  by_cases hc : s.capCnt.val + 1 < 11
  · rw [execCaptureBit_store x hc] at h; cases h; rfl
  · rw [execCaptureBit_complete x hc] at h
    have ht := execOnCaptureComplete_frame (s := { s with capSr := s.sampled x, capCnt := 0 }) ha ho h
    rw [ht]

theorem deviceStep_frame {c d : Drive} (h : deviceStep c d s = .next t) :
    t = { s with buf := t.buf, wr := t.wr, capCnt := t.capCnt, capSr := t.capSr, dClk := t.dClk
                 dData := t.dData } := by
  cases hs : s.samples c with
  | false => rw [deviceStep_unsampled d hs] at h; cases h; rfl
  | true =>
    obtain ⟨ha, ho⟩ := (captureEnabled_iff s).1 (captureEnabled_of_samples hs)
    rw [deviceStep_sampled d hs] at h
    have ht := execCaptureBit_frame (s := { s with dClk := c, dData := d }) ha ho h
    rw [ht]

theorem captureErrorStep_frame (h : captureErrorStep s = .next t) : t = { s with capCnt := t.capCnt } := by
  cases he : s.captureEnabled with
  | false => rw [captureErrorStep_disabled he] at h; cases h; rfl
  | true => rw [captureErrorStep_enabled he] at h; cases h; rfl

/-- The writers column of 10_state.md R36 for the agents other than the foreground. -/
theorem agentStep_outside_frame {e : Event} (he : e ≠ .foreground) (h : agentStep e s = .next t) :
    t = { s with
      buf := t.buf, wr := t.wr, capCnt := t.capCnt, capSr := t.capSr, dClk := t.dClk, dData := t.dData
      tick := t.tick } := by
  cases e with
  | foreground => exact absurd rfl he
  | device c d => rw [deviceStep_frame h]
  | tick k => cases h; rfl
  | captureError => rw [captureErrorStep_frame h]

/-! ### The foreground -/

/-- What every foreground step leaves alone, and when it writes the write index (10_state.md R36). -/
structure ForegroundFrame (s t : State) : Prop where
  cfg : t.cfg = s.cfg
  buf : t.buf = s.buf
  capSr : t.capSr = s.capSr
  dClk : t.dClk = s.dClk
  dData : t.dData = s.dData
  tick : t.tick = s.tick
  schedule : t.schedule = s.schedule
  wr : t.wr = s.wr ∨ (t.wr = 0 ∧ s.txPhase = .idle ∧ s.ackPhase = .idle ∧ ∃ ws, s.program = 0x500#12 :: ws)

theorem foregroundFrame_command {c : CmdWord} {ws : List CmdWord} {i : Instr} (hp : s.txPhase = .idle)
    (ha : s.ackPhase = .idle) (hq : s.program = c :: ws) (hd : decodeCmd c = .ok i)
    (h : exec i { s with program := ws } = .next t) : ForegroundFrame s t := by
  rcases decodeCmd_cases hd with ⟨rfl, -⟩ | ⟨n, rfl, -⟩ | ⟨rfl, -⟩ | ⟨b, rfl, -⟩ | ⟨rfl, rfl⟩
  · cases h; constructor <;> simp
  · cases h; constructor <;> simp
  · cases hv : popByte { s with program := ws } with
    | error f => cases (execReadByte_fault hv).symm.trans h
    | ok r =>
      cases (execReadByte_of_pop hv).symm.trans h
      rcases popByte_cases hv with ⟨-, -, hu⟩ | ⟨-, -, v, -, -, hu⟩ <;> rw [hu] <;>
        exact ⟨rfl, rfl, rfl, rfl, rfl, rfl, rfl, .inl rfl⟩
  · cases (execSendByte_start (s := { s with program := ws }) b hp ha).symm.trans h
    exact ⟨rfl, rfl, rfl, rfl, rfl, rfl, rfl, .inl rfl⟩
  · cases (execGetAck_start (s := { s with program := ws }) hp ha).symm.trans h
    exact ⟨rfl, rfl, rfl, rfl, rfl, rfl, rfl, .inr ⟨rfl, hp, ha, ws, hq⟩⟩

theorem foregroundStep_frame (h : foregroundStep s = .next t) : ForegroundFrame s t := by
  cases foregroundCase s with
  | sending i hp =>
    rw [foregroundStep_sending hp] at h
    obtain ⟨hbuf, hwr, -, hsr, hdc, hdd, htick, hsched, -, hcfg, -, -⟩ := txStep_frame h
    exact ⟨hcfg, hbuf, hsr, hdc, hdd, htick, hsched, .inl hwr⟩
  | acking hp ha =>
    rw [foregroundStep_acking hp ha] at h
    obtain ⟨hbuf, hsr, hdc, hdd, htick, hsched, -, hcfg, -, hwr⟩ := execGetAck_frame h
    exact ⟨hcfg, hbuf, hsr, hdc, hdd, htick, hsched, hwr.imp_right fun hw => absurd hw.2 ha⟩
  | quiet hp ha hq =>
    cases (foregroundStep_quiet hp ha hq).symm.trans h; exact ⟨rfl, rfl, rfl, rfl, rfl, rfl, rfl, .inl rfl⟩
  | refused c ws e hp ha hq hd =>
    cases (foregroundStep_refused hp ha hq hd).symm.trans h; exact ⟨rfl, rfl, rfl, rfl, rfl, rfl, rfl, .inl rfl⟩
  | command c ws i hp ha hq hd =>
    rw [foregroundStep_fetch hp ha hq hd] at h
    exact foregroundFrame_command hp ha hq hd h

end Frames

theorem agentStep_cfg {s t : State} {e : Event} (h : agentStep e s = .next t) : t.cfg = s.cfg := by
  by_cases he : e = .foreground
  · subst he; exact (foregroundStep_frame h).cfg
  · rw [agentStep_outside_frame he h]

/-- Settles O13: no agent's step writes the configuration. -/
theorem parametersNeverChange : Obligations.ParametersNeverChange := by
  intro s t h
  have hc := cfg_wf_of_step h
  cases hs : s.schedule with
  | nil => cases (step_unscheduled hc hs).symm.trans h; rfl
  | cons e rest => exact agentStep_cfg (s := { s with schedule := rest }) ((step_scheduled hc hs).symm.trans h)

/-- Settles O14, by the frame of the agents other than the foreground. -/
theorem outsideAgentsWriteOnlyTheirState : Obligations.OutsideAgentsWriteOnlyTheirState := by
  intro s t e rest hi hs he h
  exact agentStep_outside_frame he ((step_scheduled hi.cfg_wf hs).symm.trans h)

/-- Settles O15, by the frame of the foreground's step. -/
theorem foregroundWritesNoSlotNoInput : Obligations.ForegroundWritesNoSlotNoInput := by
  intro s t rest hs h
  obtain ⟨-, hbuf, hsr, hdc, hdd, htick, hsched, hwr⟩ :=
    foregroundStep_frame ((step_scheduled (cfg_wf_of_step h) hs).symm.trans h)
  exact ⟨hbuf, hsr, hdc, hdd, htick, hsched, hwr⟩

/-! ### Single steps -/

/-- Settles O5: a call in progress is `send_byte` of the latched byte, or else `get_ack`. -/
theorem stepContinuesTheCall : Obligations.StepContinuesTheCall := by
  refine ⟨fun s rest i hc hs hp => ?_, fun s rest hc hs hp ha => ?_, fun s rest hc hs hp ha hq => ?_⟩
  · rw [step_scheduled hc hs]
    exact foregroundStep_of_call (s := { s with schedule := rest }) (by simp [State.call, hp])
  · rw [step_scheduled hc hs]
    exact foregroundStep_of_call (s := { s with schedule := rest }) (by simp [State.call, hp, ha])
  · rw [step_scheduled hc hs]
    exact foregroundStep_quiet (s := { s with schedule := rest }) hp ha hq

/-- Settles O8. -/
theorem tickSourceAndIdleSteps : Obligations.TickSourceAndIdleSteps :=
  ⟨fun _ _ _ hc hs => step_scheduled hc hs, fun _ hc hs => step_unscheduled hc hs⟩

theorem resetWith_count (c : Config) (u : ResetOpen) : (State.resetWith c u).count = 0 := by
  simp [State.count, modSub, State.resetWith]

/-- Settles O10: the two indices are equal, so the queue is empty, and no slot is listed. -/
theorem resetLeavesTheQuietState : Obligations.ResetLeavesTheQuietState := by
  refine ⟨fun c u => ⟨rfl, rfl, rfl, ?_, rfl, rfl, rfl, rfl, rfl, rfl, rfl, readSlot_nil⟩, _, _, rfl⟩
  rw [State.queue, resetWith_count]; rfl

/-- Settles O11: no call, no frame and no byte is there, so most clauses ask nothing. -/
theorem resetMeetsTheInvariant : Obligations.ResetMeetsTheInvariant := by
  intro c u hc ht hw
  have hN : 0 < c.fifoN := Nat.lt_of_lt_of_le Nat.two_pos (Config.fifoN_ge hc)
  have hcount := resetWith_count c u
  exact {
    cfg_wf := hc
    spec := {
      wr_lt := hN
      rd_lt := hN
      count_le := hcount ▸ Nat.zero_le _
      queued_written := fun k hk => absurd (hcount ▸ hk) (Nat.not_lt_zero k)
      armed_online := fun h => absurd h Bool.false_ne_true
      disarmed_no_frame := fun _ => rfl
      capCnt_le := Nat.zero_le _
      online_quiet := fun h => absurd h Bool.false_ne_true
      transmit_offline := absurd rfl }
    buf_wf := .nil
    buf_range := fun _ h => absurd h List.not_mem_nil
    tick_lt := ht
    waitT0_lt := hw
    phase_range := fun _ h => TxPhase.noConfusion h
    one_call := absurd rfl
    clock_pin := rfl
    data_pin := rfl
    waiting_phase := fun h => absurd h Bool.false_ne_true
    ack_ready := trivial }

/-- Settles O19: both lines resolve by `lineLevel`. -/
theorem linesResolveOpenDrain : Obligations.LinesResolveOpenDrain :=
  fun _ => ⟨lineLevel_low _ _, lineLevel_low _ _, lineLevel_high _ _, lineLevel_high _ _⟩

/-- Settles O57: the calls test the position of the other call first, and the table has no row above `TX_LAST`. -/
theorem secondBlockingCallRefused : Obligations.SecondBlockingCallRefused := by
  refine ⟨fun b s hp ha => ?_, fun b s i hp hb => ?_, fun s i hp => ?_, fun s i hp hi => ?_⟩
  · simp [exec, execSendByte, hp, ha]
  · simp [exec, execSendByte, hp, hb]
  · simp [exec, execGetAck, hp]
  · have hrow := txStep_none (txAction_none s.txByte hi)
    simp [exec, execSendByte, hp, hrow]

end Sys2Proof.Machine

/-! PROOFS, part 5: the slot array between the foreground's steps: an agent other than the foreground leaves the
buffer as it is or pushes one byte (20_memory.md R66, R72), and where an access to a slot stops (R60). -/

namespace Sys2Proof.Machine

/-- The buffer of `t` is that of `s`, or that of `s` after one `push` into a free slot. -/
structure KeptOrPushed (s t : State) : Prop where
  cfg : t.cfg = s.cfg
  rd : t.rd = s.rd
  slots : (t.buf = s.buf ∧ t.wr = s.wr) ∨
    (s.succIndex s.wr ≠ s.rd ∧ s.wr < s.cfg.fifoN ∧ t.wr = s.succIndex s.wr ∧ ∃ b, t.buf = writeSlot s.buf s.wr b)

section Buffer

variable {s t : State}

theorem keptOrPushed_of_pushByte {b : Byte} (h : pushByte s b = .next t) : KeptOrPushed s t := by
  rcases pushByte_cases h with ⟨-, rfl⟩ | ⟨hf, hw, rfl⟩
  · exact ⟨rfl, rfl, .inl ⟨rfl, rfl⟩⟩
  · exact ⟨rfl, rfl, .inr ⟨hf, hw, rfl, b, rfl⟩⟩

/-- The re-arm that ends a completion does not touch the buffer. -/
theorem KeptOrPushed.rearm (h : KeptOrPushed s t) : KeptOrPushed s t.rearm where
  cfg := (State.rearm_cfg t).trans h.cfg
  rd := (State.rearm_rd t).trans h.rd
  slots := by rw [State.rearm_buf, State.rearm_wr]; exact h.slots

theorem keptOrPushed_of_onCaptureComplete {raw : RawFrame} (h : execOnCaptureComplete raw s = .next t) :
    KeptOrPushed s t := by
  cases hv : validateFrame s.cfg raw with
  | none =>
    cases (execOnCaptureComplete_invalid hv).symm.trans h
    exact KeptOrPushed.rearm ⟨rfl, rfl, .inl ⟨rfl, rfl⟩⟩
  | some b =>
    rw [execOnCaptureComplete_valid hv] at h
    cases hb : pushByte { s with capCnt := 0 } b with
    | next u =>
      rw [hb] at h; cases h
      obtain ⟨hcfg, hrd, hslots⟩ := keptOrPushed_of_pushByte hb
      exact KeptOrPushed.rearm ⟨hcfg, hrd, hslots⟩
    | fault f => rw [hb] at h; cases h
    | refused e => rw [hb] at h; cases h

theorem keptOrPushed_of_captureBit {x : Level} (h : execCaptureBit x s = .next t) : KeptOrPushed s t := by
  by_cases hc : s.capCnt.val + 1 < 11
  · cases (execCaptureBit_store x hc).symm.trans h; exact ⟨rfl, rfl, .inl ⟨rfl, rfl⟩⟩
  · rw [execCaptureBit_complete x hc] at h
    obtain ⟨hcfg, hrd, hslots⟩ := keptOrPushed_of_onCaptureComplete h
    exact ⟨hcfg, hrd, hslots⟩

/-- A step of the device, the tick source or the capture unit pushes at most one byte and takes none. -/
theorem agentStep_keptOrPushed {e : Event} (he : e ≠ .foreground) (h : agentStep e s = .next t) :
    KeptOrPushed s t := by
  cases e with
  | foreground => exact absurd rfl he
  | device c d =>
    cases hs : s.samples c with
    | false => cases (deviceStep_unsampled d hs).symm.trans h; exact ⟨rfl, rfl, .inl ⟨rfl, rfl⟩⟩
    | true =>
      obtain ⟨hcfg, hrd, hslots⟩ := keptOrPushed_of_captureBit ((deviceStep_sampled d hs).symm.trans h)
      exact ⟨hcfg, hrd, hslots⟩
  | tick k => cases h; exact ⟨rfl, rfl, .inl ⟨rfl, rfl⟩⟩
  | captureError =>
    rw [captureErrorStep_frame h]
    exact ⟨rfl, rfl, .inl ⟨rfl, rfl⟩⟩

/-! ### What the foreground sees of a push -/

/-- A push never lowers the count: into a free slot it adds one. -/
theorem Inv.count_le_of_keptOrPushed (hi : Inv s) (h : KeptOrPushed s t) : s.count ≤ t.count := by
  obtain ⟨hcfg, hrd, ⟨-, hwr⟩ | ⟨hf, -, hwr, -⟩⟩ := h
  · simp [State.count, hcfg, hrd, hwr]
  · rw [count_advance_wr (Config.fifoN_ge hi.cfg_wf) hi.spec.wr_lt hi.spec.rd_lt hf hcfg hwr hrd]
    exact Nat.le_succ _

theorem hasBytes_mono {n : Nat} (hc : s.count ≤ t.count) (h : s.hasBytes n = true) : t.hasBytes n = true :=
  decide_eq_true ((of_decide_eq_true h).trans hc)

/-- A push leaves the read slot of a buffer that is not empty: it writes the slot at `wr`, another one. -/
theorem KeptOrPushed.readSlot_rd (h : KeptOrPushed s t) (he : s.wr ≠ s.rd) :
    readSlot t.buf s.rd = readSlot s.buf s.rd := by
  obtain ⟨-, -, ⟨hbuf, -⟩ | ⟨-, -, -, b, hbuf⟩⟩ := h
  · rw [hbuf]
  · rw [hbuf, readSlot_writeSlot_other _ b he.symm]

/-- A push leaves a buffer that is not empty so: only a full buffer's `wr` would come to `rd`. -/
theorem KeptOrPushed.wr_ne_rd (h : KeptOrPushed s t) (he : s.wr ≠ s.rd) : t.wr ≠ t.rd := by
  obtain ⟨-, hrd, ⟨-, hwr⟩ | ⟨hf, -, hwr, -⟩⟩ := h
  · rwa [hwr, hrd]
  · rwa [hwr, hrd]

end Buffer

/-- Settles O18: outside the foreground the count only grows. -/
theorem availabilityOnlyGrowsOutsideForeground : Obligations.AvailabilityOnlyGrowsOutsideForeground := by
  intro s t e rest n hi hs he h hn
  have hk : KeptOrPushed { s with schedule := rest } t :=
    agentStep_keptOrPushed he ((step_scheduled hi.cfg_wf hs).symm.trans h)
  have hi' := hi.of_environment s.capSr s.dClk s.dData s.ret s.program rest
  exact hasBytes_mono (hi'.count_le_of_keptOrPushed hk) hn

/-- Settles O34: a push writes no index but `wr` and no slot but the one at `wr`, which is not the read slot. -/
theorem pushInsideReadIsHarmless : Obligations.PushInsideReadIsHarmless := by
  intro b s hi he
  obtain ⟨t, ht, -, -, -⟩ := hi.pushByte b
  have hk := keptOrPushed_of_pushByte ht
  exact ⟨t, ht, hk.rd, hk.wr_ne_rd he, hk.readSlot_rd he⟩

/-- Settles O35: the operations stop where the one slot access of `push` and of `read_byte` does. -/
theorem slotAccessFaults : Obligations.SlotAccessFaults := by
  refine ⟨fun b s hw hf => pushByte_fault b hw hf, fun s he hr => execReadByte_fault (popByte_range he hr),
    fun s he hr hv => execReadByte_fault (popByte_unwritten he hr hv),
    fun s hp ha he hr => execGetAck_g6_fault hp ha (popByte_range he hr),
    fun s hp ha he hr hv => execGetAck_g6_fault hp ha (popByte_unwritten he hr hv), fun raw b s hb hw hf => ?_⟩
  have hpush : pushByte { s with capCnt := 0 } b = .fault (.slotOutOfRange s.wr) := pushByte_fault b hw hf
  exact (execOnCaptureComplete_valid hb).trans (by rw [hpush]; rfl)

end Sys2Proof.Machine

/-! PROOFS, part 6: the encodings: command words, the frames of the codec and the result words. -/

namespace Sys2Proof.Machine

/-! ### Command words -/

/-- A command word decodes exactly if its `op` is assigned and an operation without operand has `arg` 0
(30_encoding.md R99, R100, R102). -/
theorem decodeCmd_isOk_iff (w : CmdWord) :
    (∃ i, decodeCmd w = .ok i) ↔
      cmdOp w ∈ [1#4, 2#4, 3#4, 4#4, 5#4] ∧ (cmdOp w ∈ [1#4, 3#4, 5#4] → cmdArg w = 0#8) := by
  have operandless (op : BitVec 4) (i : Instr) : (∃ j, noOperand op (cmdArg w) i = .ok j) ↔ cmdArg w = 0#8 := by
    by_cases ha : cmdArg w = 0#8 <;> simp [noOperand, ha]
  by_cases h1 : cmdOp w = 1#4
  · simp [decodeCmd, h1, operandless]
  by_cases h2 : cmdOp w = 2#4
  · simp [decodeCmd, h2]
  by_cases h3 : cmdOp w = 3#4
  · simp [decodeCmd, h3, operandless]
  by_cases h4 : cmdOp w = 4#4
  · simp [decodeCmd, h4]
  by_cases h5 : cmdOp w = 5#4
  · simp [decodeCmd, h5, operandless]
  · simp [decodeCmd, h1, h2, h3, h4, h5]

/-- Settles O2: each command's word has the command's `op` and operand as its fields, and no other word decodes. -/
theorem commandDecodeEncodeAgree : Obligations.CommandDecodeEncodeAgree := by
  refine ⟨fun i hi => ?_, fun w i hd => ?_⟩
  · cases i with
    | armReceive => exact ⟨_, rfl, by simp [decodeCmd, noOperand]⟩
    | bytesAvailable n => exact ⟨_, rfl, by simp [decodeCmd]⟩
    | readByte => exact ⟨_, rfl, by simp [decodeCmd, noOperand]⟩
    | sendByte b => exact ⟨_, rfl, by simp [decodeCmd]⟩
    | getAck => exact ⟨_, rfl, by simp [decodeCmd, noOperand]⟩
    | _ => cases hi
  · rcases decodeCmd_cases hd with ⟨rfl, rfl⟩ | ⟨n, rfl, rfl⟩ | ⟨rfl, rfl⟩ | ⟨b, rfl, rfl⟩ | ⟨rfl, rfl⟩ <;>
      exact ⟨rfl, rfl⟩

/-- Settles O3: the words that do not decode are refused by name, and a refusal writes `ret` only. -/
theorem malformedWordsAreRefused : Obligations.MalformedWordsAreRefused := by
  refine ⟨fun w => ?_, fun s w ws rest hc hs hp ha hq hbad => ?_⟩
  · rw [← not_exists, decodeCmd_isOk_iff]
    tauto
  · cases hd : decodeCmd w with
    | ok i => exact absurd hd (hbad i)
    | error e =>
      refine ⟨_, (step_scheduled hc hs).trans ?_, rfl, rfl⟩
      exact foregroundStep_refused (s := { s with schedule := rest }) hp ha hq hd

/-! ### Frames -/

/-- A frame passes the two tests of `validate` exactly if start is 0, stop is 1 and the parity bit is right. -/
theorem validateFrame_isSome_iff (c : Config) (raw : RawFrame) :
    (validateFrame c raw).isSome = true ↔
      rawStart raw = false ∧ rawStop raw = true ∧ rawPar raw = parityBit c (rawData raw) := by
  cases hs : rawStart raw with
  | true => simp [validateFrame, frameError, hs]
  | false =>
    cases ht : rawStop raw with
    | false => simp [validateFrame, frameError, hs, ht]
    | true => by_cases hp : rawPar raw = parityBit c (rawData raw) <;> simp [validateFrame, frameError, hs, ht, hp]

/-- A frame is determined by its four fields (30_encoding.md R90). -/
theorem rawFrame_ext {f g : RawFrame} (hs : rawStart f = rawStart g) (hd : rawData f = rawData g)
    (hp : rawPar f = rawPar g) (ht : rawStop f = rawStop g) : f = g := by
  apply BitVec.eq_of_getLsbD_eq
  intro i hi
  obtain rfl | ⟨k, hk, rfl⟩ | rfl | rfl : i = 0 ∨ (∃ k < 8, i = k + 1) ∨ i = 9 ∨ i = 10 := by
    by_cases h : 1 ≤ i ∧ i ≤ 8
    · exact .inr (.inl ⟨i - 1, by omega, by omega⟩)
    · omega
  · exact hs
  · rw [← rawData_getLsbD f hk, ← rawData_getLsbD g hk, hd]
  · exact hp
  · exact ht

/-- The valid frames are the encoded bytes: such a frame has the fields of the frame of its own data byte. -/
theorem validateFrame_isSome_iff_encodeFrame (c : Config) (raw : RawFrame) :
    (validateFrame c raw).isSome = true ↔ ∃ b, raw = encodeFrame c b := by
  rw [validateFrame_isSome_iff]
  constructor
  · rintro ⟨hs, ht, hp⟩
    exact ⟨rawData raw, rawFrame_ext (hs.trans (encodeFrame_start c _).symm) (rawData_encodeFrame c _).symm
      (hp.trans (encodeFrame_parity c _).symm) (ht.trans (encodeFrame_stop c _).symm)⟩
  · rintro ⟨b, rfl⟩
    rw [rawData_encodeFrame]
    exact ⟨encodeFrame_start c b, encodeFrame_stop c b, encodeFrame_parity c b⟩

theorem encodeFrame_injective (c : Config) : Function.Injective (encodeFrame c) :=
  Function.LeftInverse.injective (rawData_encodeFrame c)

/-- Settles O25. -/
theorem validFramesAreTheEncodedBytes : Obligations.ValidFramesAreTheEncodedBytes := fun c raw =>
  ⟨validateFrame_isSome_iff c raw, validateFrame_isSome_iff_encodeFrame c raw, fun _ _ h => encodeFrame_injective c h⟩

/-! ### Result words -/

/-- A step of `send_byte` returns with the word of a call without a value, or goes on and keeps the result. -/
theorem txStep_returns_or_keeps_ret {s t : State} {i : Nat} (hp : s.txPhase = .at i) (h : txStep i s = .next t) :
    t.txPhase = .idle ∧ t.ret = .done ∨ t.txPhase ≠ .idle ∧ t.ret = s.ret := by
  have busy := sending_busy hp
  cases ha : txAction s.cfg s.txByte i with
  | none => cases (txStep_none ha).symm.trans h
  | some a =>
    cases a with
    | teardown => cases (txStep_teardown ha).symm.trans h; exact .inr ⟨TxPhase.noConfusion, rfl⟩
    | pin p => cases (txStep_pin ha).symm.trans h; exact .inr ⟨TxPhase.noConfusion, State.pin_ret s p⟩
    | hold => cases (txStep_hold ha).symm.trans h; exact .inr ⟨TxPhase.noConfusion, rfl⟩
    | waitClk l =>
      cases (txStep_waitClk ha).symm.trans h
      rcases afterClkWait_cases i l s with ⟨-, e⟩ | ⟨-, -, -, e⟩ | ⟨-, -, e⟩ <;> rw [e]
      · exact .inr ⟨busy, rfl⟩
      · exact .inr ⟨busy, rfl⟩
      · exact .inr ⟨TxPhase.noConfusion, rfl⟩
    | waitIdle =>
      cases (txStep_waitIdle ha).symm.trans h
      rcases afterIdleWait_cases s with ⟨-, e⟩ | ⟨-, -, -, e⟩ | ⟨-, -, e⟩ <;> rw [e]
      · exact .inr ⟨busy, rfl⟩
      · exact .inr ⟨busy, rfl⟩
      · exact .inl ⟨rfl, rfl⟩

/-- A step of the machine during a transmission: the call's own step, or one that keeps phase and result. -/
theorem step_sending_returns_or_keeps_ret {s t : State} (hp : s.txPhase ≠ .idle) (h : step s = .next t) :
    t.txPhase = .idle ∧ t.ret = .done ∨ t.txPhase ≠ .idle ∧ t.ret = s.ret := by
  have hc := cfg_wf_of_step h
  cases hs : s.schedule with
  | nil => cases (step_unscheduled hc hs).symm.trans h; exact .inr ⟨hp, rfl⟩
  | cons e rest =>
    have he := (step_scheduled hc hs).symm.trans h
    by_cases hf : e = .foreground
    · subst hf
      rcases hi : s.txPhase with _ | i
      · exact absurd hi hp
      · exact txStep_returns_or_keeps_ret (s := { s with schedule := rest }) hi
          ((foregroundStep_sending (s := { s with schedule := rest }) hi).symm.trans he)
    · rw [agentStep_outside_frame hf he]
      exact .inr ⟨hp, rfl⟩

/-- A step of `get_ack` in progress returns true after the acknowledgment code, returns false otherwise, or goes on
and keeps the result (43_link_transmit.md R210). -/
theorem execGetAck_returns_or_keeps_ret {s t : State} (hp : s.txPhase = .idle) (ha : s.ackPhase ≠ .idle)
    (h : execGetAck s = .next t) :
    t.ackPhase = .idle ∧ (t.ret = .bool true ∧ s.ackPhase = .g7 s.cfg.ackCode ∨
      t.ret = .bool false ∧ s.ackPhase ≠ .g7 s.cfg.ackCode) ∨
    t.ackPhase ≠ .idle ∧ t.ret = s.ret := by
  cases hk : s.ackPhase with
  | idle => exact absurd hk ha
  | g2 => cases (execGetAck_g2 hp hk).symm.trans h; exact .inr ⟨AckPhase.noConfusion, rfl⟩
  | g3 => cases (execGetAck_g3 hp hk).symm.trans h; exact .inr ⟨AckPhase.noConfusion, State.arm_ret s⟩
  | g4 => cases (execGetAck_g4 hp hk).symm.trans h; exact .inr ⟨AckPhase.noConfusion, rfl⟩
  | g5 =>
    cases hb : s.hasBytes 1 with
    | true => cases (execGetAck_g5_byte hp hk hb).symm.trans h; exact .inr ⟨AckPhase.noConfusion, rfl⟩
    | false =>
      by_cases ht : s.cfg.tAck ≤ s.elapsed
      · cases (execGetAck_g5_timeout hp hk hb ht).symm.trans h
        exact .inl ⟨rfl, .inr ⟨rfl, AckPhase.noConfusion⟩⟩
      · cases (execGetAck_g5_again hp hk hb (Nat.not_le.1 ht)).symm.trans h; exact .inr ⟨ha, rfl⟩
  | g6 =>
    cases hv : popByte s with
    | error f => cases (execGetAck_g6_fault hp hk hv).symm.trans h
    | ok r =>
      obtain ⟨_ | v, u⟩ := r
      · cases (execGetAck_g6_empty hp hk hv).symm.trans h
        exact .inl ⟨rfl, .inr ⟨rfl, AckPhase.noConfusion⟩⟩
      · cases (execGetAck_g6_byte hp hk hv).symm.trans h
        rcases popByte_cases hv with ⟨-, -, rfl⟩ | ⟨-, -, w, -, -, rfl⟩ <;> exact .inr ⟨AckPhase.noConfusion, rfl⟩
  | g7 v =>
    cases (execGetAck_g7 hp hk).symm.trans h
    refine .inl ⟨rfl, ?_⟩
    by_cases hv : v = s.cfg.ackCode
    · exact .inl ⟨congrArg _ (decide_eq_true hv), congrArg _ hv⟩
    · exact .inr ⟨congrArg _ (decide_eq_false hv), fun hg => hv (AckPhase.g7.inj hg)⟩

/-- The two fields of a result word (30_encoding.md R98). -/
theorem resultWord_fields (v : Byte) : (1#1 ++ v).getLsbD 8 = true ∧ (1#1 ++ v).extractLsb' 0 8 = v := by
  refine ⟨by rw [BitVec.getLsbD_append]; rfl, BitVec.eq_of_getLsbD_eq fun i hi => ?_⟩
  rw [BitVec.getLsbD_extractLsb', BitVec.getLsbD_append]
  simp [hi]

/-- Settles O56: each operation's result, read through `Ret.word`. -/
theorem resultWordsFollowTheTable : Obligations.ResultWordsFollowTheTable := by
  refine ⟨fun s => ⟨_, rfl, rfl⟩, fun n s => ⟨_, rfl, ?_⟩, fun v s he hr hv => ?_, fun s he => ?_,
    fun b s hp ha => ⟨_, execSendByte_start b hp ha, rfl⟩, fun s t _ hp h => ?_,
    fun s hp ha => ⟨_, execGetAck_start hp ha, rfl⟩, fun s t hp ha h => ?_⟩
  · by_cases hn : n.toNat ≤ s.count <;> simp [Ret.word, State.hasBytes, hn]
  · exact ⟨_, _, execReadByte_of_pop (popByte_take he hr hv), rfl, resultWord_fields v⟩
  · exact ⟨_, execReadByte_of_pop (popByte_empty he), rfl⟩
  · exact (step_sending_returns_or_keeps_ret hp h).imp_left fun ⟨hi, hr⟩ => ⟨hi, by rw [hr]; rfl⟩
  · refine (execGetAck_returns_or_keeps_ret hp ha h).imp_left fun ⟨hi, hr⟩ => ⟨hi, ?_⟩
    exact hr.imp (.imp_left fun e => by rw [e]; rfl) (.imp_left fun e => by rw [e]; rfl)

end Sys2Proof.Machine

/-! PROOFS, part 7: a device frame reaches the queue. Each clock pulse is one sample, whichever edge samples. -/

namespace Sys2Proof.Machine

/-! ### The queue under a push -/

section Queue

variable {s t : State}

/-- The queue is read off the configuration, the slots and the indices. -/
theorem queue_congr (hc : t.cfg = s.cfg) (hb : t.buf = s.buf) (hw : t.wr = s.wr) (hr : t.rd = s.rd) :
    t.queue = s.queue := by
  simp only [State.queue, State.count, hc, hb, hw, hr]

/-- Every queued slot has been written, so the queue has `count` bytes. -/
theorem Inv.queue_length (h : Inv s) : s.queue.length = s.count := by
  rw [State.queue, List.length_filterMap_eq_countP, List.countP_eq_length.2, List.length_range]
  exact fun k hk => h.spec.queued_written k (List.mem_range.1 hk)

/-- The slot at `wr` is none of the queued ones. -/
theorem Inv.queued_slot_ne_wr (h : Inv s) {k : Nat} (hk : k < s.count) : (s.rd + k) % s.cfg.fifoN ≠ s.wr := by
  have hlt := h.count_lt
  intro he
  rw [← slot_at_count h.spec.wr_lt h.spec.rd_lt] at he
  exact hk.ne (Nat.ModEq.eq_of_lt_of_lt (Nat.ModEq.add_left_cancel' _ he) (hk.trans hlt) hlt)

/-- A store appends its byte to the queue. -/
theorem Inv.queue_store (h : Inv s) (b : Byte) (hf : s.succIndex s.wr ≠ s.rd) :
    State.queue { s with buf := writeSlot s.buf s.wr b, wr := s.succIndex s.wr } = s.queue ++ [b] := by
  have hw := h.spec.wr_lt
  have hr := h.spec.rd_lt
  have hcount : State.count { s with buf := writeSlot s.buf s.wr b, wr := s.succIndex s.wr } = s.count + 1 :=
    count_advance_wr (Config.fifoN_ge h.cfg_wf) hw hr hf rfl rfl rfl
  rw [State.queue, hcount, List.range_succ, List.filterMap_append, State.queue]
  congr 1
  · refine List.filterMap_congr fun k hk => ?_
    exact readSlot_writeSlot_other _ b (h.queued_slot_ne_wr (List.mem_range.1 hk))
  · simp [slot_at_count hw hr]

/-- The queue after `push` (41_receive_buffer.md R147): the byte at the end, or dropped at `FIFO_N - 1` bytes. -/
theorem queue_of_pushByte (h : Inv s) {b : Byte} (hp : pushByte s b = .next t) :
    t.queue = if s.queue.length < s.cfg.fifoN - 1 then s.queue ++ [b] else s.queue := by
  have hfull := full_iff_count s (Config.fifoN_ge h.cfg_wf) h.spec.wr_lt h.spec.rd_lt
  have hle := h.spec.count_le
  rw [h.queue_length]
  rcases pushByte_cases hp with ⟨hf, rfl⟩ | ⟨hf, -, rfl⟩
  · rw [hfull.1 hf, if_neg (Nat.lt_irrefl _)]
  · rw [h.queue_store b hf, if_pos (lt_of_le_of_ne hle (mt hfull.2 hf))]

/-- The queue `q` after the frame `raw` has come in: a valid frame's byte is pushed (42_link_receive.md R174,
41_receive_buffer.md R147). -/
def queueAfterFrame (c : Config) (raw : RawFrame) (q : List Byte) : List Byte :=
  match validateFrame c raw with
  | some b => if q.length < c.fifoN - 1 then q ++ [b] else q
  | none => q

theorem queueAfterFrame_valid {c : Config} {raw : RawFrame} {b : Byte} (h : validateFrame c raw = some b)
    (q : List Byte) : queueAfterFrame c raw q = if q.length < c.fifoN - 1 then q ++ [b] else q := by
  simp [queueAfterFrame, h]

theorem queueAfterFrame_invalid {c : Config} {raw : RawFrame} (h : validateFrame c raw = none) (q : List Byte) :
    queueAfterFrame c raw q = q := by simp [queueAfterFrame, h]

/-- A completion does to the queue what the frame says; the re-arm that ends it does nothing to the queue. -/
theorem queue_of_onCaptureComplete (h : Inv s) {raw : RawFrame} (hc : execOnCaptureComplete raw s = .next t) :
    t.queue = queueAfterFrame s.cfg raw s.queue := by
  have rearm_queue (u : State) : u.rearm.queue = u.queue :=
    queue_congr u.rearm_cfg u.rearm_buf u.rearm_wr u.rearm_rd
  cases hv : validateFrame s.cfg raw with
  | none =>
    cases (execOnCaptureComplete_invalid hv).symm.trans hc
    rw [queueAfterFrame_invalid hv]
    exact rearm_queue _
  | some b =>
    obtain ⟨u, hu, -, -, -⟩ := h.dropFrame.pushByte b
    rw [execOnCaptureComplete_valid hv, hu] at hc
    cases hc
    rw [queueAfterFrame_valid hv]
    exact (rearm_queue u).trans (queue_of_pushByte h.dropFrame hu)

/-- A completion leaves no partial frame. -/
theorem capCnt_of_onCaptureComplete {raw : RawFrame} (h : execOnCaptureComplete raw s = .next t) : t.capCnt = 0 := by
  obtain ⟨u, -, rfl⟩ := takeCompletion_cases h
  exact u.rearm_capCnt

/-- The 11th sample hands the frame that the shift register then holds to the completion (42_link_receive.md R173). -/
theorem captureBit_completes (h : Inv s) (hn : s.capCnt.val = 10) {x : Level} (hc : execCaptureBit x s = .next t) :
    t.capCnt = 0 ∧ t.queue = queueAfterFrame s.cfg (writeBit s.capSr 10 (levelBit x)) s.queue := by
  rw [execCaptureBit_complete x (by omega), State.sampled, hn] at hc
  have hi := h.of_environment (writeBit s.capSr 10 (levelBit x)) s.dClk s.dData s.ret s.program s.schedule
  exact ⟨capCnt_of_onCaptureComplete hc, queue_of_onCaptureComplete hi.dropFrame hc⟩

end Queue

/-! ### One clock pulse -/

/-- A run keeps the invariant. -/
theorem Inv.ofRuns {n : Nat} {s t : State} (h : Inv s) (hr : Runs n s t) : Inv t := by
  induction n generalizing s with
  | zero => cases hr; exact h
  | succ n ih =>
    obtain ⟨u, hu, hr⟩ := runs_succ_iff.1 hr
    obtain ⟨v, hv, hi⟩ := everyStepIsSafeAndKeepsInv s h
    cases hu.symm.trans hv
    exact ih hi hr

/-- The two device steps that carry the bit `x` (30_encoding.md R94). -/
def pulse (x : Bool) : List Event := [.device .low (bitDrive x), .device .released (bitDrive x)]

theorem framePulses_eq (raw : RawFrame) : framePulses raw = (List.range 11).flatMap fun i => pulse (raw.getLsbD i) :=
  rfl

theorem levelBit_bitDrive (x : Bool) : levelBit (lineLevel .released (bitDrive x)) = x := by
  cases x <;> rfl

section Pulse

variable {s : State}

/-- A step of the device while the unit is enabled: the host leaves both lines alone (10_state.md R41 I-f), so the
device's drives make the clock's edges and the data line's level. -/
theorem Inv.step_device (h : Inv s) (ha : s.armed = true) {clk data : Drive} {es : List Event}
    (hs : s.schedule = .device clk data :: es) :
    step s =
      if isSampleEdge s.cfg.sampleEdge (lineLevel .released s.dClk) (lineLevel .released clk) then
        execCaptureBit (lineLevel .released data) { s with dClk := clk, dData := data, schedule := es }
      else .next { s with dClk := clk, dData := data, schedule := es } := by
  have ho := h.spec.armed_online ha
  obtain ⟨hclk, hdata, -⟩ := h.spec.online_quiet ho
  have hsamples : State.samples { s with schedule := es } clk =
      isSampleEdge s.cfg.sampleEdge (lineLevel .released s.dClk) (lineLevel .released clk) := by
    simp [State.samples, State.captureEnabled, ha, ho, State.clk, hclk]
  rw [step_scheduled h.cfg_wf hs, ← hsamples, ← hdata]
  exact if_congr Iff.rfl rfl rfl

/-- A sample goes on, writes what `execCaptureBit_frame` says and keeps the invariant. -/
theorem Inv.captureBit_frame (h : Inv s) (ha : s.armed = true) (x : Level) :
    ∃ t, execCaptureBit x s = .next t ∧ Inv t ∧
      t = { s with buf := t.buf, wr := t.wr, capCnt := t.capCnt, capSr := t.capSr } := by
  have ho := h.spec.armed_online ha
  obtain ⟨t, ht, hi⟩ := h.captureBit ha ho x
  exact ⟨t, ht, hi, execCaptureBit_frame ha ho ht⟩

/-- A pulse of the clock is two steps, of which exactly one takes the sample: by `SAMPLE_EDGE` the one that pulls the
clock low or the one that lets it go, so what the device drives (`dc`) and what is scheduled (`es`) then is left open. -/
theorem Inv.runs_pulse (h : Inv s) (ha : s.armed = true) (hd : s.dClk = .released) {x : Bool} {rest : List Event}
    (hs : s.schedule = pulse x ++ rest) :
    ∃ dc es t, execCaptureBit (lineLevel .released (bitDrive x))
        { s with dClk := dc, dData := bitDrive x, schedule := es } = .next t ∧
      Runs 2 s { t with dClk := .released, schedule := rest } := by
  have inv (dc : Drive) (es : List Event) : Inv { s with dClk := dc, dData := bitDrive x, schedule := es } :=
    h.of_environment s.capSr dc (bitDrive x) s.ret s.program es
  have pull := h.step_device ha hs
  rw [hd] at pull
  have run {u t : State} (hu : step s = .next u) (ht : step u = .next t) : Runs 2 s t :=
    runs_succ_iff.2 ⟨u, hu, runs_succ_iff.2 ⟨t, ht, rfl⟩⟩
  cases he : s.cfg.sampleEdge with
  | falling =>
    obtain ⟨t, ht, hi, hf⟩ :=
      (inv .low (.device .released (bitDrive x) :: rest)).captureBit_frame ha (lineLevel .released (bitDrive x))
    have release := hi.step_device (by rw [hf]; exact ha) (by rw [hf])
    refine ⟨.low, _, t, ht, run (pull.trans ?_) (release.trans ?_)⟩
    · rw [he]; exact ht
    · rw [hf, he]; rfl
  | rising =>
    obtain ⟨t, ht, -, hf⟩ := (inv .released rest).captureBit_frame ha (lineLevel .released (bitDrive x))
    have release := (inv .low (.device .released (bitDrive x) :: rest)).step_device ha rfl
    refine ⟨.released, rest, t, ht, run (pull.trans ?_) (release.trans ?_)⟩
    · rw [he]; rfl
    · rw [he]
      exact ht.trans (by rw [hf])

/-- A pulse that leaves the frame incomplete puts its bit at `cap_cnt` (42_link_receive.md R172). -/
theorem Inv.runs_pulse_store (h : Inv s) (ha : s.armed = true) (hd : s.dClk = .released)
    (hn : s.capCnt.val + 1 < 11) {x : Bool} {rest : List Event} (hs : s.schedule = pulse x ++ rest) :
    ∃ t, Runs 2 s t ∧ t.capCnt.val = s.capCnt.val + 1 ∧ t.capSr = writeBit s.capSr s.capCnt.val x ∧
      t = { s with dData := t.dData, capSr := t.capSr, capCnt := t.capCnt, schedule := rest } := by
  obtain ⟨dc, es, t, ht, hr⟩ := h.runs_pulse ha hd hs
  have store := execCaptureBit_store (s := { s with dClk := dc, dData := bitDrive x, schedule := es })
    (lineLevel .released (bitDrive x)) hn
  cases store.symm.trans ht
  exact ⟨_, hr, rfl, congrArg (writeBit _ _) (levelBit_bitDrive x), by rw [hd]⟩

/-- The 11th pulse completes the frame. -/
theorem Inv.runs_pulse_complete (h : Inv s) (ha : s.armed = true) (hd : s.dClk = .released) (hn : s.capCnt.val = 10)
    {x : Bool} {rest : List Event} (hs : s.schedule = pulse x ++ rest) :
    ∃ t, Runs 2 s t ∧ t.schedule = rest ∧ t.armed = true ∧ t.capCnt = 0 ∧ t.rd = s.rd ∧
      t.queue = queueAfterFrame s.cfg (writeBit s.capSr 10 x) s.queue := by
  obtain ⟨dc, es, t, ht, hr⟩ := h.runs_pulse ha hd hs
  have hi : Inv { s with dClk := dc, dData := bitDrive x, schedule := es } :=
    h.of_environment s.capSr dc (bitDrive x) s.ret s.program es
  obtain ⟨hcap, hqueue⟩ := captureBit_completes hi hn ht
  rw [levelBit_bitDrive] at hqueue
  have hf := execCaptureBit_frame (s := { s with dClk := dc, dData := bitDrive x, schedule := es }) ha
    (h.spec.armed_online ha) ht
  exact ⟨_, hr, rfl, by rw [hf]; exact ha, hcap, by rw [hf], hqueue⟩

/-- The first `n` pulses of a frame, up to ten, leave its first `n` bits in the shift register. -/
theorem Inv.runs_pulses (h : Inv s) (ha : s.armed = true) (h0 : s.capCnt = 0) (hd : s.dClk = .released)
    (raw : RawFrame) {n : Nat} (hn : n < 11) {rest : List Event}
    (hs : s.schedule = ((List.range n).flatMap fun i => pulse (raw.getLsbD i)) ++ rest) :
    ∃ t, Runs (2 * n) s t ∧ t.capCnt.val = n ∧ (∀ i < n, t.capSr.getLsbD i = raw.getLsbD i) ∧
      t = { s with dData := t.dData, capSr := t.capSr, capCnt := t.capCnt, schedule := rest } := by
  induction n generalizing rest with
  | zero =>
    refine ⟨s, rfl, by rw [h0]; rfl, fun i hi => absurd hi (Nat.not_lt_zero i), ?_⟩
    rw [show rest = s.schedule from hs.symm]
  | succ n ih =>
    rw [List.range_succ, List.flatMap_append, List.append_assoc] at hs
    obtain ⟨t, ht, hcnt, hbits, hf⟩ := ih (by omega) hs
    obtain ⟨u, hu, hcnt', hsr, hf'⟩ :=
      (h.ofRuns ht).runs_pulse_store (by rw [hf]; exact ha) (by rw [hf]; exact hd) (by omega)
        (x := raw.getLsbD n) (rest := rest) (by rw [hf]; simp)
    refine ⟨u, runs_append ht hu, by omega, fun i hi => ?_, hf'.trans (by rw [hf])⟩
    rw [hsr, hcnt]
    by_cases hin : i = n
    · rw [hin, writeBit_same _ _ (by omega)]
    · rw [writeBit_other _ _ (by omega) hin, hbits i (by omega)]

end Pulse

/-- The shift register with a frame's first ten bits is the frame once the 11th is written. -/
theorem writeBit_last {sr raw : RawFrame} (h : ∀ i < 10, sr.getLsbD i = raw.getLsbD i) :
    writeBit sr 10 (raw.getLsbD 10) = raw := by
  apply BitVec.eq_of_getLsbD_eq
  intro i hi
  by_cases h10 : i = 10
  · rw [h10, writeBit_same _ _ (by omega)]
  · rw [writeBit_other _ _ (by omega) h10, h i (by omega)]

/-- Settles O42: ten pulses fill the shift register, the 11th completes the frame. -/
theorem deviceFrameReachesTheQueue : Obligations.DeviceFrameReachesTheQueue := by
  intro s raw rest h ha h0 hd hs
  rw [framePulses_eq, List.range_succ, List.flatMap_append, List.append_assoc] at hs
  obtain ⟨t, ht, hcnt, hbits, hf⟩ := h.runs_pulses ha h0 hd raw (by omega) hs
  obtain ⟨u, hu, hsched, harmed, hcap, hrd, hqueue⟩ :=
    (h.ofRuns ht).runs_pulse_complete (by rw [hf]; exact ha) (by rw [hf]; exact hd) hcnt (x := raw.getLsbD 10)
      (rest := rest) (by rw [hf]; simp)
  have hcfg : t.cfg = s.cfg := by rw [hf]
  have htq : t.queue = s.queue := by rw [hf]; exact queue_congr rfl rfl rfl rfl
  have hruns := runs_append ht hu
  rw [writeBit_last hbits, hcfg, htq] at hqueue
  exact ⟨u, hruns, hsched, harmed, (h.ofRuns hruns).spec.armed_online harmed, hcap, hrd.trans (by rw [hf]), hqueue⟩

end Sys2Proof.Machine

/-! PROOFS, part 8: the frame codec. Everything follows from what makes a frame valid: framing and the parity of its
bits 9 to 1. -/

namespace Sys2Proof.Machine

/-! ### What validate and encode answer -/

theorem exec_validate (raw : RawFrame) (s : State) :
    exec (.validate raw) s = .next { s with ret := .validated (validateFrame s.cfg raw) } := rfl

theorem exec_encode (b : Byte) (s : State) :
    exec (.encode b) s = .next { s with ret := .frame (encodeFrame s.cfg b) } := rfl

theorem frameError_framing {c : Config} {raw : RawFrame} (h : rawStart raw = true ∨ rawStop raw = false) :
    frameError c raw = some .framingError := by
  cases hs : rawStart raw with
  | true => simp [frameError, hs]
  | false => simp [frameError, hs, h.resolve_left (by simp [hs])]

theorem frameError_framed {c : Config} {raw : RawFrame} (hs : rawStart raw = false) (ht : rawStop raw = true) :
    frameError c raw = if rawPar raw = parityBit c (rawData raw) then none else some .parityError := by
  simp [frameError, hs, ht]

theorem validateFrame_of_error {c : Config} {raw : RawFrame} {k : ErrorKind} (h : frameError c raw = some k) :
    validateFrame c raw = none := by simp [validateFrame, h]

theorem validateFrame_of_no_error {c : Config} {raw : RawFrame} (h : frameError c raw = none) :
    validateFrame c raw = some (rawData raw) := by simp [validateFrame, h]

theorem validateFrame_isSome_iff_no_error (c : Config) (raw : RawFrame) :
    (validateFrame c raw).isSome = true ↔ frameError c raw = none := by
  cases h : frameError c raw with
  | none => simp [validateFrame_of_no_error h]
  | some k => simp [validateFrame_of_error h]

/-- Settles O23: the result and the error kind are both read off the error of the frame. -/
theorem validateTestsFramingThenParity : Obligations.ValidateTestsFramingThenParity := by
  have rejected {raw : RawFrame} {s : State} {k : ErrorKind} (h : frameError s.cfg raw = some k) :
      exec (.validate raw) s = .next { s with ret := .validated none } ∧ raises (.validate raw) s = some k :=
    ⟨by rw [exec_validate, validateFrame_of_error h], h⟩
  refine fun raw s => ⟨fun h => rejected (frameError_framing h),
    fun hs ht hp => rejected ((frameError_framed hs ht).trans (if_neg hp)), fun hs ht hp => ?_⟩
  have h : frameError s.cfg raw = none := (frameError_framed hs ht).trans (if_pos hp)
  exact ⟨by rw [exec_validate, validateFrame_of_no_error h]; rfl, h⟩

/-- Settles O24. -/
theorem encodeFramesTheByte : Obligations.EncodeFramesTheByte := fun b s =>
  ⟨_, exec_encode b s, rfl, encodeFrame_start s.cfg b, encodeFrame_stop s.cfg b, encodeFrame_parity s.cfg b,
    fun _ hk => encodeFrame_data s.cfg b hk⟩

/-! ### The round trip -/

theorem validateFrame_encodeFrame (c : Config) (b : Byte) : validateFrame c (encodeFrame c b) = some b := by
  obtain ⟨d, hd⟩ := Option.isSome_iff_exists.mp ((validateFrame_isSome_iff_encodeFrame c _).mpr ⟨b, rfl⟩)
  rw [hd, validateFrame_data hd, rawData_encodeFrame]

theorem eq_encodeFrame_of_validateFrame {c : Config} {raw : RawFrame} {d : Byte} (h : validateFrame c raw = some d) :
    raw = encodeFrame c d := by
  obtain ⟨b, rfl⟩ := (validateFrame_isSome_iff_encodeFrame c raw).mp (by rw [h]; rfl)
  rw [validateFrame_data h, rawData_encodeFrame]

/-- Settles O26. -/
theorem codecRoundTrip : Obligations.CodecRoundTrip := fun c =>
  ⟨validateFrame_encodeFrame c, fun _ _ h => eq_encodeFrame_of_validateFrame h⟩

/-! ### Changed bits -/

/-- The exclusive-or of the data bits and the parity bit, bits 9 to 1 of the frame. -/
def parityOfFrame (raw : RawFrame) : Bool := xor8 (rawData raw) ^^ rawPar raw

/-- A frame is valid if its framing is right and its parity is `PARITY_ODD`. -/
theorem validateFrame_isSome_iff_parityOfFrame (c : Config) (raw : RawFrame) :
    (validateFrame c raw).isSome = true ↔
      rawStart raw = false ∧ rawStop raw = true ∧ parityOfFrame raw = c.parityOdd := by
  have move : ∀ x p o : Bool, p = (x ^^ o) ↔ (x ^^ p) = o := by decide
  rw [validateFrame_isSome_iff, parityOfFrame, parityBit, move]

theorem xor8_xor (a b : Byte) : xor8 (a ^^^ b) = (xor8 a ^^ xor8 b) := by
  have : Std.Commutative xor := ⟨Bool.xor_comm⟩
  simp only [xor8, BitVec.getLsbD_xor]
  ac_rfl

theorem rawStart_xor (f g : RawFrame) : rawStart (f ^^^ g) = (rawStart f ^^ rawStart g) := BitVec.getLsbD_xor

theorem rawStop_xor (f g : RawFrame) : rawStop (f ^^^ g) = (rawStop f ^^ rawStop g) := BitVec.getLsbD_xor

theorem parityOfFrame_xor (f g : RawFrame) : parityOfFrame (f ^^^ g) = (parityOfFrame f ^^ parityOfFrame g) := by
  have hd : rawData (f ^^^ g) = rawData f ^^^ rawData g := BitVec.extractLsb'_xor
  have hp : rawPar (f ^^^ g) = (rawPar f ^^ rawPar g) := BitVec.getLsbD_xor
  simp only [parityOfFrame, hd, hp, xor8_xor, Bool.xor_assoc, Bool.xor_left_comm]

/-- One of the bits 9 to 1 is no framing bit and counts once in the parity. -/
theorem fields_of_inner_bit {i : Nat} (h1 : 1 ≤ i) (h9 : i ≤ 9) :
    rawStart (1#11 <<< i) = false ∧ rawStop (1#11 <<< i) = false ∧ parityOfFrame (1#11 <<< i) = true := by
  interval_cases i <;> decide

/-- A change of one bit touches the framing or the parity. -/
theorem one_bit_touches_framing_or_parity {i : Nat} (hi : i < 11) :
    rawStart (1#11 <<< i) = true ∨ rawStop (1#11 <<< i) = true ∨ parityOfFrame (1#11 <<< i) = true := by
  by_cases h : 1 ≤ i ∧ i ≤ 9
  · exact .inr (.inr (fields_of_inner_bit h.1 h.2).2.2)
  · obtain rfl | rfl : i = 0 ∨ i = 10 := by omega
    · exact .inl rfl
    · exact .inr (.inl rfl)

/-- A change of a valid frame gives a valid frame exactly if it keeps the framing and the parity. -/
theorem validateFrame_xor_isSome_iff {c : Config} {raw : RawFrame} (h : (validateFrame c raw).isSome = true)
    (mask : RawFrame) :
    (validateFrame c (raw ^^^ mask)).isSome = true ↔
      rawStart mask = false ∧ rawStop mask = false ∧ parityOfFrame mask = false := by
  obtain ⟨hs, ht, hp⟩ := (validateFrame_isSome_iff_parityOfFrame c raw).mp h
  have unchanged : ∀ o p : Bool, (o ^^ p) = o ↔ p = false := by decide
  rw [validateFrame_isSome_iff_parityOfFrame, rawStart_xor, rawStop_xor, parityOfFrame_xor, hs, ht, hp]
  simp only [unchanged]

/-- Two valid frames of the same byte are the same. -/
theorem eq_of_validateFrame_eq_some {c : Config} {f g : RawFrame} {d : Byte} (hf : validateFrame c f = some d)
    (hg : validateFrame c g = some d) : f = g :=
  (eq_encodeFrame_of_validateFrame hf).trans (eq_encodeFrame_of_validateFrame hg).symm

theorem one_shiftLeft_ne {i j : Nat} (hi : i < 11) (hij : i ≠ j) : 1#11 <<< i ≠ 1#11 <<< j := by
  intro h
  have hbit := congrArg (·.getLsbD i) h
  simp [one_shiftLeft_getLsbD _ hi, hij.symm] at hbit

/-- Settles O27: a change is seen if it has a framing bit or odd parity; one bit has, two bits of 9 to 1 have not. -/
theorem singleBitErrorsAreDetected : Obligations.SingleBitErrorsAreDetected := by
  intro c raw d h
  have valid_iff := validateFrame_xor_isSome_iff (c := c) (raw := raw) (by rw [h]; rfl)
  refine ⟨fun i hi => ?_, fun i j hi1 hi9 hj1 hj9 hij => ?_⟩
  · rw [← Option.not_isSome_iff_eq_none, valid_iff]
    rintro ⟨hs, ht, hp⟩
    simpa [hs, ht, hp] using one_bit_touches_framing_or_parity hi
  · obtain ⟨his, hit, hip⟩ := fields_of_inner_bit hi1 hi9
    obtain ⟨hjs, hjt, hjp⟩ := fields_of_inner_bit hj1 hj9
    rw [BitVec.xor_assoc]
    obtain ⟨e, he⟩ := Option.isSome_iff_exists.mp ((valid_iff (1#11 <<< i ^^^ 1#11 <<< j)).mpr
      ⟨by rw [rawStart_xor, his, hjs]; rfl, by rw [rawStop_xor, hit, hjt]; rfl,
        by rw [parityOfFrame_xor, hip, hjp]; rfl⟩)
    refine ⟨e, he, fun hed => one_shiftLeft_ne (by omega) hij ?_⟩
    exact BitVec.xor_eq_zero_iff.mp (xor_left_eq_self_iff.mp (eq_of_validateFrame_eq_some (hed ▸ he) h))

/-! ### Counts -/

/-- All words of `w` bits, in order. -/
def allWords (w : Nat) : List (BitVec w) := (List.range (2 ^ w)).map (BitVec.ofNat w)

theorem length_allWords (w : Nat) : (allWords w).length = 2 ^ w := by simp [allWords]

theorem mem_allWords {w : Nat} (x : BitVec w) : x ∈ allWords w :=
  List.mem_map.mpr ⟨x.toNat, List.mem_range.mpr x.isLt, by simp⟩

theorem nodup_allWords (w : Nat) : (allWords w).Nodup := by
  refine List.Nodup.map_on (fun a ha b hb h => ?_) List.nodup_range
  have hab := congrArg BitVec.toNat h
  rwa [BitVec.toNat_ofNat, BitVec.toNat_ofNat, Nat.mod_eq_of_lt (List.mem_range.mp ha),
    Nat.mod_eq_of_lt (List.mem_range.mp hb)] at hab

/-- The valid frames are the encoded bytes, each once. -/
theorem valid_perm_encoded (c : Config) :
    ((allWords 11).filter fun raw => (validateFrame c raw).isSome).Perm ((allWords 8).map (encodeFrame c)) := by
  refine (List.perm_ext_iff_of_nodup ((nodup_allWords 11).filter _)
    ((nodup_allWords 8).map (encodeFrame_injective c))).mpr fun raw => ?_
  rw [List.mem_filter, validateFrame_isSome_iff_encodeFrame, List.mem_map]
  simp only [mem_allWords, true_and, eq_comm]

theorem length_valid (c : Config) : ((allWords 11).filter fun raw => (validateFrame c raw).isSome).length = 256 := by
  rw [(valid_perm_encoded c).length_eq, List.length_map, length_allWords]
  rfl

/-- The configuration with the other parity. -/
def otherParity (c : Config) : Config := { c with parityOdd := !c.parityOdd }

theorem parityBit_otherParity (c : Config) (d : Byte) : parityBit (otherParity c) d = !parityBit c d := by
  simp [parityBit, otherParity]

/-- A parity error is a frame that is valid under the other parity. -/
theorem frameError_eq_parityError_iff (c : Config) (raw : RawFrame) :
    frameError c raw = some .parityError ↔ (validateFrame (otherParity c) raw).isSome = true := by
  rw [validateFrame_isSome_iff_no_error]
  by_cases h : rawStart raw = true ∨ rawStop raw = false
  · simp [frameError_framing h]
  · obtain ⟨hs, ht⟩ : rawStart raw = false ∧ rawStop raw = true := by simpa using h
    rw [frameError_framed hs ht, frameError_framed hs ht, parityBit_otherParity]
    cases rawPar raw <;> cases parityBit c (rawData raw) <;> decide

theorem frameError_cases (c : Config) (raw : RawFrame) :
    frameError c raw = none ∨ frameError c raw = some .framingError ∨ frameError c raw = some .parityError := by
  unfold frameError
  split_ifs <;> simp

/-- Every frame is valid, a framing error or a parity error, and only one of these. -/
theorem length_eq_by_frameError (c : Config) (l : List RawFrame) :
    l.length = (l.filter fun raw => (validateFrame c raw).isSome).length +
      (l.filter fun raw => frameError c raw == some .framingError).length +
      (l.filter fun raw => frameError c raw == some .parityError).length := by
  induction l with
  | nil => rfl
  | cons raw l ih =>
    rcases frameError_cases c raw with h | h | h
    · simp [h, validateFrame_of_no_error h, ih]; omega
    · simp [h, validateFrame_of_error h, ih]; omega
    · simp [h, validateFrame_of_error h, ih]; omega

theorem length_parityError (c : Config) :
    ((allWords 11).filter fun raw => frameError c raw == some .parityError).length = 256 := by
  have valid_other (raw : RawFrame) :
      (frameError c raw == some .parityError) = (validateFrame (otherParity c) raw).isSome := by
    rw [Bool.eq_iff_iff, beq_iff_eq, frameError_eq_parityError_iff]
  simp only [valid_other, length_valid]

theorem length_framingError (c : Config) :
    ((allWords 11).filter fun raw => frameError c raw == some .framingError).length = 1536 := by
  have hall := length_eq_by_frameError c (allWords 11)
  rw [length_allWords, length_valid, length_parityError] at hall
  omega

theorem encodeFrame_eq_of_parityOdd_eq {c c' : Config} (h : c.parityOdd = c'.parityOdd) :
    encodeFrame c = encodeFrame c' := by
  funext b
  rw [encodeFrame, encodeFrame, parityBit, parityBit, h]

/-- The sum and the exclusive-or of the 256 frames of even parity. -/
theorem encoded_sum_and_xor :
    (((allWords 8).map (encodeFrame Config.vectors)).map BitVec.toNat).sum = 392960 ∧
      ((allWords 8).map (encodeFrame Config.vectors)).foldl (· ^^^ ·) 0#11 = 0#11 := by decide +kernel

theorem valid_sum_and_xor {c : Config} (h : c.parityOdd = false) :
    (((allWords 11).filter fun raw => (validateFrame c raw).isSome).map BitVec.toNat).sum = 392960 ∧
      ((allWords 11).filter fun raw => (validateFrame c raw).isSome).foldl (· ^^^ ·) 0#11 = 0#11 := by
  have hperm := valid_perm_encoded c
  rw [encodeFrame_eq_of_parityOdd_eq (c' := Config.vectors) h] at hperm
  rw [(hperm.map BitVec.toNat).sum_eq, hperm.foldl_eq]
  exact encoded_sum_and_xor

/-- Settles O28: the valid frames are a permutation of the 256 encoded bytes, and the parity errors are the valid
frames of the other parity; the other frames are framing errors. -/
theorem frameCounts : Obligations.FrameCounts := fun c =>
  ⟨length_valid c, length_framingError c, length_parityError c, valid_sum_and_xor⟩

end Sys2Proof.Machine

/-! PROOFS, part 9: the receive buffer. The four operations at the indices and slots, and then at the queue that these
stand for. -/

namespace Sys2Proof.Machine

/-! ### The index arithmetic -/

/-- `IDX_W` bits number `FIFO_N` slots (10_state.md R24). -/
theorem fifoN_le_two_pow_idxW (c : Config) : c.fifoN ≤ 2 ^ c.idxW := by
  unfold Config.idxW
  split
  · next h1 => exact h1
  · exact Nat.le_of_pred_lt Nat.lt_log2_self

/-- No narrower index numbers them: half of `2 ^ IDX_W` is too few. -/
theorem two_pow_idxW_lt {c : Config} (h2 : 2 ≤ c.fifoN) : 2 ^ c.idxW < 2 * c.fifoN := by
  have hlog := Nat.log2_self_le (n := c.fifoN - 1) (by omega)
  rw [Config.idxW, if_neg (by omega), Nat.pow_succ]
  omega

theorem succIndex_lt (s : State) (i : Nat) (h : 0 < s.cfg.fifoN) : s.succIndex i < s.cfg.fifoN := Nat.mod_lt _ h

/-- Settles O20: the widest intermediate is `wr + FIFO_N`, less than twice `FIFO_N`. -/
theorem indexArithmeticIsModulo : Obligations.IndexArithmeticIsModulo := by
  intro s h2 hw hr
  have hpos : 0 < s.cfg.fifoN := by omega
  have hwidth := fifoN_le_two_pow_idxW s.cfg
  refine ⟨fun _ => succIndex_eq s, count_eq s hw hr, count_lt s hpos, succIndex_lt s _ hpos, succIndex_lt s _ hpos,
    hwidth, two_pow_idxW_lt h2, ?_⟩
  rw [Nat.pow_succ]
  omega

/-- Settles O21. -/
theorem emptyAndFullAreCounts : Obligations.EmptyAndFullAreCounts := fun s h2 hw hr =>
  ⟨wr_eq_rd_iff_count s hw hr, full_iff_count s h2 hw hr, isEmpty_iff s, isFull_iff s⟩

/-! ### The four operations -/

theorem raises_push_full {s : State} (b : Byte) (h : s.succIndex s.wr = s.rd) :
    raises (.push b) s = some .overflow := if_pos ((isFull_iff s).2 h)

theorem raises_push_store {s : State} (b : Byte) (h : s.succIndex s.wr ≠ s.rd) : raises (.push b) s = none :=
  if_neg (mt (isFull_iff s).1 h)

theorem raises_readByte_empty {s : State} (h : s.wr = s.rd) : raises .readByte s = some .noData :=
  if_pos ((isEmpty_iff s).2 h)

theorem raises_readByte_take {s : State} (h : s.wr ≠ s.rd) : raises .readByte s = none :=
  if_neg (mt (isEmpty_iff s).1 h)

/-- Settles O29: a push is a slot write and an advance of `wr`, or nothing. -/
theorem pushStoresOrDropsNewest : Obligations.PushStoresOrDropsNewest := by
  refine fun b s => ⟨fun hw hf => ?_, fun hf => ⟨pushByte_full b hf, raises_push_full b hf⟩⟩
  exact ⟨_, pushByte_store b hw hf, raises_push_store b hf, readSlot_writeSlot_same s.buf s.wr b,
    fun _ ha => readSlot_writeSlot_other s.buf b ha, rfl, rfl⟩

/-- Settles O30: what `popByte` answers is the result. -/
theorem readByteTakesTheOldest : Obligations.ReadByteTakesTheOldest := fun _ =>
  ⟨fun _ he hr hv => ⟨execReadByte_of_pop (popByte_take he hr hv), raises_readByte_take he⟩,
    fun he => ⟨execReadByte_of_pop (popByte_empty he), raises_readByte_empty he⟩⟩

theorem hasBytes_iff (s : State) (n : Nat) : s.hasBytes n = true ↔ n ≤ s.count := decide_eq_true_iff

theorem exec_bytesAvailable (n : Byte) (s : State) :
    exec (.bytesAvailable n) s = .next { s with ret := .bool (s.hasBytes n.toNat) } := rfl

/-- Settles O31: the count lies in `[0, FIFO_N)`, which decides the two ends of the comparison. -/
theorem bytesAvailableComparesCount : Obligations.BytesAvailableComparesCount := by
  intro n s h2 hw hr
  have hlt := count_lt s (by omega)
  rw [← count_eq s hw hr]
  refine ⟨_, exec_bytesAvailable n s, hasBytes_iff s _, fun h0 => ?_, fun hN => ?_⟩
  · subst h0
    exact (hasBytes_iff s _).2 (Nat.zero_le _)
  · exact decide_eq_false (by omega)

/-! ### The queue -/

section Queue

variable {s : State}

theorem queue_of_count_zero (h : s.count = 0) : s.queue = [] := by rw [State.queue, h]; rfl

theorem emptyBuffer_queue (s : State) : s.emptyBuffer.queue = [] :=
  queue_of_count_zero (by simp [State.count, modSub])

/-- Advancing `rd` takes the byte of the read slot off the front of the queue. -/
theorem queue_take (hw : s.wr < s.cfg.fifoN) (hr : s.rd < s.cfg.fifoN) (he : s.wr ≠ s.rd) {v : Byte}
    (hv : readSlot s.buf s.rd = some v) : s.queue = v :: State.queue { s with rd := s.succIndex s.rd } := by
  have slot_zero : readSlot s.buf ((s.rd + 0) % s.cfg.fifoN) = some v := by
    rw [Nat.add_zero, Nat.mod_eq_of_lt hr, hv]
  have slot_succ (k : Nat) : (s.rd + (k + 1)) % s.cfg.fifoN = (s.succIndex s.rd + k) % s.cfg.fifoN := by
    rw [State.succIndex, Nat.mod_add_mod, Nat.add_right_comm, Nat.add_assoc]
  rw [State.queue, ← count_advance_rd hw hr he, List.range_succ_eq_map,
    List.filterMap_cons_some (f := fun k => readSlot s.buf ((s.rd + k) % s.cfg.fifoN)) slot_zero, List.filterMap_map,
    State.queue]
  exact congrArg _ (List.filterMap_congr fun k _ => congrArg _ (slot_succ k))

/-- `read_byte` at the queue (41_receive_buffer.md R147): no byte from the empty queue, else its head. -/
theorem popByte_queue (h : Inv s) :
    (s.queue = [] ∧ popByte s = .ok (none, s)) ∨
    (∃ v u, popByte s = .ok (some v, u) ∧ s.queue = v :: u.queue) := by
  have hw := h.spec.wr_lt
  have hr := h.spec.rd_lt
  rcases h.popByte with ⟨he, hp⟩ | ⟨he, v, hp⟩
  · exact .inl ⟨queue_of_count_zero ((wr_eq_rd_iff_count s hw hr).1 he), hp⟩
  · rcases popByte_cases hp with ⟨he', -⟩ | ⟨-, -, w, hslot, hvw, -⟩
    · exact absurd he' he
    · cases hvw
      exact .inr ⟨v, _, hp, queue_take hw hr he hslot⟩

end Queue

/-- Settles O32. -/
theorem resetBufferZeroesIndices : Obligations.ResetBufferZeroesIndices := fun s =>
  ⟨rfl, fun _ => emptyBuffer_queue s⟩

/-- Settles O33, operation by operation: `push` by the queue after a store or a drop, `read_byte` by the queue's head,
and the other two by its length. -/
theorem bufferRefinesQueue : Obligations.BufferRefinesQueue := by
  intro s hi
  refine ⟨hi.queue_length, fun b => ?_, fun v q hq => ?_, fun hq => ?_, fun n => ?_,
    _, rfl, emptyBuffer_queue s⟩
  · obtain ⟨t, ht, -, -, -⟩ := hi.pushByte b
    exact ⟨t, ht, queue_of_pushByte hi ht⟩
  · rcases popByte_queue hi with ⟨hnil, -⟩ | ⟨w, u, hp, hcons⟩
    · cases hnil.symm.trans hq
    · cases hcons.symm.trans hq
      exact ⟨_, execReadByte_of_pop hp, rfl, rfl⟩
  · rcases popByte_queue hi with ⟨-, hp⟩ | ⟨w, u, -, hcons⟩
    · exact ⟨_, execReadByte_of_pop hp, rfl, hq⟩
    · cases hcons.symm.trans hq
  · rw [hi.queue_length]
    exact ⟨_, exec_bytesAvailable n s, rfl, rfl⟩

end Sys2Proof.Machine

/-! PROOFS, part 10: the receive path. Which device steps are sampled, what a sample and a completion write, and that
the events of the capture unit leave it armed. -/

namespace Sys2Proof.Machine

/-! ### Sampling edges -/

theorem isSampleEdge_iff (e : Edge) (a b : Level) :
    isSampleEdge e a b = true ↔ (e = .falling ∧ a = .high ∧ b = .low) ∨ (e = .rising ∧ a = .low ∧ b = .high) := by
  cases e <;> simp [isSampleEdge]

theorem samples_iff (s : State) (clk : Drive) :
    s.samples clk = true ↔
      (s.armed = true ∧ s.capOnline = true) ∧ isSampleEdge s.cfg.sampleEdge s.clk (lineLevel s.hClk clk) = true := by
  rw [← captureEnabled_iff]
  exact Bool.and_eq_true_iff

section ScheduledSteps

variable {s : State} {clk data : Drive} {rest : List Event}

theorem step_device_sampled (hc : s.cfg.wf = true) (hs : s.schedule = .device clk data :: rest)
    (h : s.samples clk = true) :
    step s = execCaptureBit (lineLevel s.hData data) { s with dClk := clk, dData := data, schedule := rest } :=
  (step_scheduled hc hs).trans (deviceStep_sampled (s := { s with schedule := rest }) data h)

theorem step_device_unsampled (hc : s.cfg.wf = true) (hs : s.schedule = .device clk data :: rest)
    (h : s.samples clk = false) : step s = .next { s with dClk := clk, dData := data, schedule := rest } :=
  (step_scheduled hc hs).trans (deviceStep_unsampled (s := { s with schedule := rest }) data h)

theorem step_captureError_enabled (hc : s.cfg.wf = true) (hs : s.schedule = .captureError :: rest)
    (h : s.captureEnabled = true) : step s = .next { s with capCnt := 0, schedule := rest } :=
  (step_scheduled hc hs).trans (captureErrorStep_enabled (s := { s with schedule := rest }) h)

theorem step_captureError_disabled (hc : s.cfg.wf = true) (hs : s.schedule = .captureError :: rest)
    (h : s.captureEnabled = false) : step s = .next { s with schedule := rest } :=
  (step_scheduled hc hs).trans (captureErrorStep_disabled (s := { s with schedule := rest }) h)

end ScheduledSteps

/-- Settles O6. -/
theorem samplingEdgeRunsCaptureBit : Obligations.SamplingEdgeRunsCaptureBit :=
  fun s _ _ _ hc hs ha ho he => step_device_sampled hc hs ((samples_iff s _).2 ⟨⟨ha, ho⟩, (isSampleEdge_iff _ _ _).2 he⟩)

/-- Settles O7: a sampled step would be enabled and make the other change of the clock. -/
theorem disabledEventsDoNothing : Obligations.DisabledEventsDoNothing := by
  refine ⟨fun s rest c d hc hs h => step_device_unsampled hc hs (Bool.eq_false_iff.2 fun hsam => ?_),
    fun s rest hc hs h => step_captureError_disabled hc hs (Bool.eq_false_iff.2 fun hen => ?_)⟩
  · obtain ⟨⟨ha, ho⟩, hedge⟩ := (samples_iff s c).1 hsam
    rcases (isSampleEdge_iff _ _ _).1 hedge with ⟨he, hclk, hclk'⟩ | ⟨he, hclk, hclk'⟩ <;>
      simp [ha, ho, he, hclk, hclk'] at h
  · obtain ⟨ha, ho⟩ := (captureEnabled_iff s).1 hen
    simp [ha, ho] at h

/-! ### Arming, teardown and restart -/

theorem exec_armReceive (s : State) : exec .armReceive s = .next { s.arm with ret := .done } := rfl

/-- Settles O36, by the three cases of `State.arm`. -/
theorem armReceiveArmsOnce : Obligations.ArmReceiveArmsOnce := fun s =>
  ⟨fun ha => by rw [exec_armReceive, State.arm_of_armed ha],
    fun ha ho => by rw [exec_armReceive, State.arm_of_online ha ho],
    fun ha ho => by rw [exec_armReceive, State.arm_of_offline ha ho]⟩

/-- Settles O41: the two operations have no cases. -/
theorem teardownAndRestartCapture : Obligations.TeardownAndRestartCapture := fun _ => ⟨rfl, rfl⟩

/-! ### One sample -/

theorem levelBit_eq_decide (x : Level) : levelBit x = decide (x = .high) := by cases x <;> rfl

theorem sampled_getLsbD_capCnt (s : State) (x : Level) :
    (s.sampled x).getLsbD s.capCnt.val = decide (x = .high) :=
  (writeBit_same s.capSr (levelBit x) s.capCnt.isLt).trans (levelBit_eq_decide x)

theorem sampled_getLsbD_other (s : State) (x : Level) {i : Nat} (h : i ≠ s.capCnt.val) :
    (s.sampled x).getLsbD i = s.capSr.getLsbD i := writeBit_other s.capSr (levelBit x) s.capCnt.isLt h

/-- Settles O37: the register is `State.sampled`; whether the frame is complete is whether the count was 10. -/
theorem captureBitStoresTheSample : Obligations.CaptureBitStoresTheSample := fun x s =>
  ⟨s.sampled x, sampled_getLsbD_capCnt s x, fun _ hi => sampled_getLsbD_other s x hi,
    fun hn => ⟨_, execCaptureBit_store x (by omega), rfl, rfl⟩,
    fun hn => execCaptureBit_complete x (by omega)⟩

/-- Settles O38: under the invariant a sample goes on in its frame, and what it does to the count depends on whether
it is the 11th. -/
theorem captureBitAlwaysCompletes : Obligations.CaptureBitAlwaysCompletes := by
  intro x s hi ha
  obtain ⟨t, ht, -, hf⟩ := hi.captureBit_frame ha x
  refine ⟨t, ht, hf, ?_⟩
  by_cases hn : s.capCnt.val = 10
  · exact .inr ⟨hn, (captureBit_completes hi hn ht).1⟩
  · cases (execCaptureBit_store x (by omega)).symm.trans ht
    exact .inl ⟨rfl, rfl, rfl⟩

/-! ### The completion handlers -/

section Handlers

variable {s : State} {raw : RawFrame} {b : Byte}

theorem execOnCaptureComplete_store (ha : s.armed = true) (ho : s.capOnline = true)
    (hv : validateFrame s.cfg raw = some b) (hw : s.wr < s.cfg.fifoN) (hf : s.succIndex s.wr ≠ s.rd) :
    execOnCaptureComplete raw s =
      .next { s with buf := writeSlot s.buf s.wr b, wr := s.succIndex s.wr, capCnt := 0 } := by
  rw [execOnCaptureComplete_valid hv, pushByte_store (s := { s with capCnt := 0 }) b hw hf, andThen]
  exact congrArg _ (State.rearm_of_enabled ha ho)

theorem execOnCaptureComplete_drop (ha : s.armed = true) (ho : s.capOnline = true)
    (hv : validateFrame s.cfg raw = some b) (hf : s.succIndex s.wr = s.rd) :
    execOnCaptureComplete raw s = .next { s with capCnt := 0 } := by
  rw [execOnCaptureComplete_valid hv, pushByte_full (s := { s with capCnt := 0 }) b hf, andThen]
  exact congrArg _ (State.rearm_of_enabled ha ho)

theorem execOnCaptureComplete_discard (ha : s.armed = true) (ho : s.capOnline = true)
    (hv : validateFrame s.cfg raw = none) : execOnCaptureComplete raw s = .next { s with capCnt := 0 } :=
  (execOnCaptureComplete_invalid hv).trans (congrArg _ (State.rearm_of_enabled ha ho))

/-- A completion of a valid frame raises what the push of its byte raises. -/
theorem raises_onCaptureComplete_valid (hv : validateFrame s.cfg raw = some b) :
    raises (.onCaptureComplete raw) s = raises (.push b) s := by
  have h : frameError s.cfg raw = none := (validateFrame_isSome_iff_no_error s.cfg raw).1 (by rw [hv]; rfl)
  simp [raises, completionError, h]

/-- A completion of an invalid frame raises what the codec raises. -/
theorem raises_onCaptureComplete_invalid (hv : validateFrame s.cfg raw = none) :
    raises (.onCaptureComplete raw) s = frameError s.cfg raw := by
  cases h : frameError s.cfg raw with
  | none => cases (validateFrame_of_no_error h).symm.trans hv
  | some k => simp [raises, completionError, h]

end Handlers

/-- Settles O39: the push of a valid byte stores it or drops it, and the re-arm shows in `cap_cnt` only. -/
theorem onCaptureCompletePushesValidByte : Obligations.OnCaptureCompletePushesValidByte := by
  refine fun raw s ha ho hw => ⟨fun b hv hf => ?_, fun b hv hf => ?_, fun hv => ?_⟩
  · exact ⟨_, execOnCaptureComplete_store ha ho hv hw hf, readSlot_writeSlot_same s.buf s.wr b,
      fun _ hne => readSlot_writeSlot_other s.buf b hne, rfl,
      (raises_onCaptureComplete_valid hv).trans (raises_push_store b hf)⟩
  · exact ⟨execOnCaptureComplete_drop ha ho hv hf, (raises_onCaptureComplete_valid hv).trans (raises_push_full b hf)⟩
  · exact ⟨execOnCaptureComplete_discard ha ho hv, raises_onCaptureComplete_invalid hv⟩

/-- The error handler in the state its event needs. -/
theorem execOnCaptureError_enabled {s : State} (ha : s.armed = true) (ho : s.capOnline = true) :
    execOnCaptureError s = .next { s with capCnt := 0 } :=
  congrArg _ (State.rearm_of_enabled (s := { s with capCnt := 0 }) ha ho)

/-- Settles O40. -/
theorem onCaptureErrorDiscardsTheAttempt : Obligations.OnCaptureErrorDiscardsTheAttempt := fun s ha ho =>
  ⟨execOnCaptureError_enabled ha ho, rfl,
    fun _ hc hs => step_captureError_enabled hc hs ((captureEnabled_iff s).2 ⟨ha, ho⟩)⟩

/-- Settles O17: neither the error handler nor a sample writes `armed` or `cap_online` in the state its event needs,
and both the error and the 11th sample end the frame. -/
theorem completionStepsRearm : Obligations.CompletionStepsRearm := by
  intro s e rest hi hs ha he
  have ho := hi.spec.armed_online ha
  rcases he with rfl | ⟨c, d, rfl, hn, hedge⟩
  · exact ⟨_, step_captureError_enabled hi.cfg_wf hs ((captureEnabled_iff s).2 ⟨ha, ho⟩), ha, ho, rfl⟩
  · have hu : Inv { s with dClk := c, dData := d, schedule := rest } :=
      hi.of_environment s.capSr c d s.ret s.program rest
    obtain ⟨t, ht, -, hf⟩ := hu.captureBit_frame ha (lineLevel s.hData d)
    exact ⟨t, (step_device_sampled hi.cfg_wf hs ((samples_iff s c).2 ⟨⟨ha, ho⟩, hedge⟩)).trans ht,
      by rw [hf]; exact ha, by rw [hf]; exact ho, (captureBit_completes hu hn ht).1⟩

end Sys2Proof.Machine

/-! PROOFS, part 11: single steps of the transmit path. -/

namespace Sys2Proof.Machine

/-- Settles O9: each range is one of the tests of `Config.wf`. -/
theorem unsupportedConfigurationRefused : Obligations.UnsupportedConfigurationRefused := by
  intro s h
  refine step_unsupported (Bool.eq_false_iff.2 fun hc => ?_)
  simp only [Config.wf, Bool.and_eq_true, decide_eq_true_eq] at hc
  omega

/-- Settles O22. -/
theorem elapsedIsRightAcrossWrap : Obligations.ElapsedIsRightAcrossWrap := by
  intro s d hw hd ht
  rw [State.elapsed, ht]
  exact modSub_add hw hd

/-! ### The step table -/

theorem txAction_txLast (c : Config) (b : Byte) : txAction c b c.txLast = some .waitIdle := by
  cases hx : c.txExtraWaits <;> simp [txAction, Config.txLast, hx]

/-- Settles O44: the rows by number, a data bit's three rows for each of the eight bits. -/
theorem transmitStepTable : Obligations.TransmitStepTable := by
  intro c b
  refine ⟨rfl, rfl, rfl, rfl, rfl, fun i hi => ?_, rfl, rfl, rfl, rfl, rfl, rfl, fun hx => ?_, txAction_txLast c b,
    fun _ => txAction_none b⟩
  · interval_cases i <;> exact ⟨rfl, rfl, rfl⟩
  · simp [txAction, hx, Config.nreqLevel]

theorem isWaitPhase_iff (c : Config) (b : Byte) (i : Nat) :
    isWaitPhase c b i = true ↔
      (∃ l, txAction c b i = some (.waitClk l)) ∨ txAction c b i = some .waitIdle := by
  unfold isWaitPhase
  cases txAction c b i with
  | none => simp
  | some a => cases a <;> simp

/-! ### Single steps of `send_byte` -/

/-- Settles O43. -/
theorem sendByteLatchesAndTearsDown : Obligations.SendByteLatchesAndTearsDown :=
  fun b _ hp ha => execSendByte_start b hp ha

section Sending

variable {s : State} {i : Nat}

/-- `send_byte` of the latched byte takes the step of the call in progress. -/
theorem exec_sendByte_sending (hp : s.txPhase = .at i) : exec (.sendByte s.txByte) s = txStep i s := by
  simp [exec, execSendByte, hp]

/-- The entry of either wait. -/
theorem txStep_enterWait (hw : isWaitPhase s.cfg s.txByte i = true) (h : s.waiting = false) :
    txStep i s = .next { s with waitT0 := s.tick, waiting := true } := by
  rcases (isWaitPhase_iff _ _ _).1 hw with ⟨l, row⟩ | row
  · rw [txStep_waitClk row, afterClkWait_entry l h]
  · rw [txStep_waitIdle row, afterIdleWait_entry h]

/-- A wait of the call in progress that goes round. -/
theorem StillWaiting.txStep (h : StillWaiting s) (hp : s.txPhase = .at i) : txStep i s = .next s :=
  (foregroundStep_sending hp).symm.trans h.goes_round

end Sending

/-- Settles O45. -/
theorem transmitPinAndHoldSteps : Obligations.TransmitPinAndHoldSteps := by
  intro s i hp
  rw [exec_sendByte_sending hp]
  exact ⟨txStep_pin, txStep_pin, txStep_pin, txStep_pin, txStep_hold⟩

/-- Settles O48: a wait that is over goes on, whichever of its two conditions ended it. -/
theorem timeoutsDoNotStopTheSequence : Obligations.TimeoutsDoNotStopTheSequence := by
  intro s i hp
  rw [exec_sendByte_sending hp]
  refine ⟨txStep_enterWait, fun l row hw ho => ?_, fun l row hw hl ht => ?_, fun row hw ho => ?_,
    fun row hw hl ht => ?_⟩
  · rw [txStep_waitClk row, afterClkWait_over hw ho]
  · exact (StillWaiting.clk i l hp row hw hl ht).txStep hp
  · rw [txStep_waitIdle row, afterIdleWait_over hw ho]
  · exact (StillWaiting.idle i hp row hw hl ht).txStep hp

/-! ### Single steps of the two waits -/

section Waits

variable {s t : State} {o : WaitOutcome}

theorem exec_waitClk {l : Level} (h : s.waitClkStep l = (o, t)) :
    exec (.waitClk l) s = .next { t with ret := .wait o } ∧ raises (.waitClk l) s = waitError .clkTimeout o := by
  simp [exec, execWaitClk, raises, h]

theorem exec_waitIdle (h : s.waitIdleStep = (o, t)) :
    exec .waitIdle s = .next { t with ret := .wait o } ∧ raises .waitIdle s = waitError .idleTimeout o := by
  simp [exec, execWaitIdle, raises, h]

/-- The test of `wait_clk`. -/
theorem waitClkStep_eq (s : State) {l : Level} {x : Bool} (h : decide (s.clk = l) = x) :
    s.waitClkStep l = waitStep s x s.cfg.tClkWait := by rw [State.waitClkStep, h]

/-- The test of `wait_idle`. -/
theorem waitIdleStep_of_high (hc : s.clk = .high) (hd : s.data = .high) :
    s.waitIdleStep = waitStep s true s.cfg.tIdle := by simp [State.waitIdleStep, hc, hd]

theorem waitIdleStep_of_low (h : s.clk = .low ∨ s.data = .low) :
    s.waitIdleStep = waitStep s false s.cfg.tIdle := by
  rcases h with h | h <;> simp [State.waitIdleStep, h]

end Waits

/-- Settles O46, by the four cases of `waitStep`. -/
theorem waitClkSeesTimesOutOrGoesRound : Obligations.WaitClkSeesTimesOutOrGoesRound := by
  refine fun l s => ⟨fun hw => ?_, fun hw hl => ?_, fun hw hl ht => ?_, fun hw hl ht => ?_⟩
  · exact (exec_waitClk ((waitClkStep_eq s rfl).trans (waitStep_entry _ _ hw))).1
  · exact (exec_waitClk ((waitClkStep_eq s (decide_eq_true hl)).trans (waitStep_seen _ hw))).1
  · exact exec_waitClk ((waitClkStep_eq s (decide_eq_false hl)).trans (waitStep_timeout hw ht))
  · exact (exec_waitClk ((waitClkStep_eq s (decide_eq_false hl)).trans (waitStep_again hw ht))).1

/-- Settles O47, in the same way. -/
theorem waitIdleSeesTimesOutOrGoesRound : Obligations.WaitIdleSeesTimesOutOrGoesRound := by
  refine fun s => ⟨fun hw => ?_, fun hw hc hd => ?_, fun hw hl ht => ?_, fun hw hl ht => ?_⟩
  · exact (exec_waitIdle (waitStep_entry _ _ hw)).1
  · exact (exec_waitIdle ((waitIdleStep_of_high hc hd).trans (waitStep_seen _ hw))).1
  · exact exec_waitIdle ((waitIdleStep_of_low hl).trans (waitStep_timeout hw ht))
  · exact (exec_waitIdle ((waitIdleStep_of_low hl).trans (waitStep_again hw ht))).1

/-! ### Single steps of `get_ack` -/

section Acking

variable {s : State}

theorem hasBytes_one_of_count_zero (h : s.count = 0) : s.hasBytes 1 = false :=
  decide_eq_false (by omega)

theorem raises_getAck_g5 (ha : s.ackPhase = .g5) (hc : s.count = 0) (ht : s.cfg.tAck ≤ s.elapsed) :
    raises .getAck s = some .ackTimeout := by
  simp [raises, ackError, ha, hasBytes_one_of_count_zero hc, ht]

theorem raises_getAck_g6 (ha : s.ackPhase = .g6) (he : s.wr = s.rd) : raises .getAck s = some .ackTimeout := by
  simp [raises, ackError, ha, (isEmpty_iff s).2 he]

theorem raises_getAck_g7 {v : Byte} (ha : s.ackPhase = .g7 v) :
    raises .getAck s = if v = s.cfg.ackCode then none else some .ackWrong := by
  simp [raises, ackError, ha]

end Acking

/-- Settles O53, step by step. -/
theorem getAckSteps : Obligations.GetAckSteps := by
  intro s hp
  refine ⟨execGetAck_start hp, execGetAck_g2 hp, fun ha hr ho => ?_, execGetAck_g4 hp, fun ha hc => ?_,
    fun ha hc ht => ⟨?_, raises_getAck_g5 ha hc ht⟩, fun ha hc ht => ?_, fun v ha he hr hv => ?_,
    fun ha he => ⟨?_, raises_getAck_g6 ha he⟩, fun v ha hv => ?_, fun v ha hv => ?_⟩
  · exact (execGetAck_g3 hp ha).trans (by rw [State.arm_of_online hr ho])
  · exact execGetAck_g5_byte hp ha ((hasBytes_iff s 1).2 hc)
  · exact execGetAck_g5_timeout hp ha (hasBytes_one_of_count_zero hc) ht
  · exact execGetAck_g5_again hp ha (hasBytes_one_of_count_zero hc) ht
  · exact execGetAck_g6_byte hp ha (popByte_take he hr hv)
  · exact execGetAck_g6_empty hp ha (popByte_empty he)
  · rw [raises_getAck_g7 ha, if_pos hv]
    exact ⟨(execGetAck_g7 hp ha).trans (by rw [decide_eq_true hv]; rfl), rfl⟩
  · rw [raises_getAck_g7 ha, if_neg hv]
    exact ⟨(execGetAck_g7 hp ha).trans (by rw [decide_eq_false hv]; rfl), rfl⟩

end Sys2Proof.Machine

/-! PROOFS, part 12: a `send_byte` in progress. What its steps can do, what every agent's steps leave alone meanwhile,
and that its pin actions are the rows of the step table, one after the other. -/

namespace Sys2Proof.Machine

/-! ### What a step of the call can do -/

/-- The state after one step of the call at phase `i` (43_link_transmit.md R201): the step of a pin row or of the hold,
and for a wait its entry, one more round, or its end. -/
inductive TxStepCase (i : Nat) (s : State) : State → Prop
  | teardown (row : txAction s.cfg s.txByte i = some .teardown) : TxStepCase i s (s.teardown.txNext i)
  | pin (a : PinAction) (row : txAction s.cfg s.txByte i = some (.pin a)) : TxStepCase i s ((s.pin a).txNext i)
  | hold (row : txAction s.cfg s.txByte i = some .hold) : TxStepCase i s (s.txNext i)
  | enter (row : isWaitPhase s.cfg s.txByte i = true) (out : s.waiting = false) :
      TxStepCase i s { s with waitT0 := s.tick, waiting := true }
  | again (wait : StillWaiting s) (loop : s.waiting = true) : TxStepCase i s s
  | passed (l : Level) (row : txAction s.cfg s.txByte i = some (.waitClk l)) :
      TxStepCase i s { s with waiting := false, txPhase := .at (i + 1) }
  | finish (row : txAction s.cfg s.txByte i = some .waitIdle) :
      TxStepCase i s { s with waiting := false, txPhase := .idle, ret := .done }

theorem level_eq_low {l : Level} (h : l ≠ .high) : l = .low := by
  cases l with
  | low => rfl
  | high => exact absurd rfl h

theorem low_of_not_both_high {s : State} (h : ¬(s.clk = .high ∧ s.data = .high)) : s.clk = .low ∨ s.data = .low :=
  (not_and_or.1 h).imp level_eq_low level_eq_low

theorem txStepCase {s t : State} {i : Nat} (hp : s.txPhase = .at i) (h : txStep i s = .next t) :
    TxStepCase i s t := by
  cases row : txAction s.cfg s.txByte i with
  | none => cases (txStep_none row).symm.trans h
  | some a =>
    cases a with
    | teardown => cases (txStep_teardown row).symm.trans h; exact .teardown row
    | pin a => cases (txStep_pin row).symm.trans h; exact .pin a row
    | hold => cases (txStep_hold row).symm.trans h; exact .hold row
    | waitClk l =>
      cases (txStep_waitClk row).symm.trans h
      rcases afterClkWait_cases i l s with ⟨hw, e⟩ | ⟨hw, hl, ht, e⟩ | ⟨-, -, e⟩ <;> rw [e]
      · exact .enter ((isWaitPhase_iff _ _ _).2 (.inl ⟨l, row⟩)) hw
      · exact .again (.clk i l hp row hw hl ht) hw
      · exact .passed l row
    | waitIdle =>
      cases (txStep_waitIdle row).symm.trans h
      rcases afterIdleWait_cases s with ⟨hw, e⟩ | ⟨hw, hl, ht, e⟩ | ⟨-, -, e⟩ <;> rw [e]
      · exact .enter ((isWaitPhase_iff _ _ _).2 (.inr row)) hw
      · exact .again (.idle i hp row hw (low_of_not_both_high hl) ht) hw
      · exact .finish row

/-- A step of the call leaves the capture unit torn down. -/
theorem txStep_keeps_offline {s t : State} {i : Nat} (hp : s.txPhase = .at i) (h : txStep i s = .next t)
    (ha : s.armed = false) (ho : s.capOnline = false) (hc : s.capCnt = 0) :
    t.armed = false ∧ t.capOnline = false ∧ t.capCnt = 0 := by
  cases txStepCase hp h with
  | teardown _ => exact ⟨rfl, rfl, rfl⟩
  | pin a _ => simp [ha, ho, hc]
  | hold _ => exact ⟨ha, ho, hc⟩
  | enter _ _ => exact ⟨ha, ho, hc⟩
  | again _ _ => exact ⟨ha, ho, hc⟩
  | passed _ _ => exact ⟨ha, ho, hc⟩
  | finish _ => exact ⟨ha, ho, hc⟩

/-! ### The receive path meanwhile -/

/-- While the capture unit is disabled, the agents other than the foreground write only the inputs
(42_link_receive.md R176). -/
theorem agentStep_disabled {s t : State} {e : Event} (he : e ≠ .foreground) (hd : s.captureEnabled = false)
    (h : agentStep e s = .next t) : t = { s with dClk := t.dClk, dData := t.dData, tick := t.tick } := by
  cases e with
  | foreground => exact absurd rfl he
  | device c d =>
    have hs : s.samples c = false := by rw [State.samples, hd]; rfl
    cases (deviceStep_unsampled d hs).symm.trans h; rfl
  | tick k => cases h; rfl
  | captureError => cases (captureErrorStep_disabled hd).symm.trans h; rfl

/-- Settles O49: the call's own steps leave the receive path alone, and the other agents find the unit disabled. -/
theorem transmissionFreezesTheReceivePath : Obligations.TransmissionFreezesTheReceivePath := by
  intro s t hi hp h
  obtain ⟨hoff, hdis⟩ := hi.spec.transmit_offline hp
  have hcnt := hi.spec.disarmed_no_frame hdis
  cases hs : s.schedule with
  | nil =>
    cases (step_unscheduled hi.cfg_wf hs).symm.trans h
    exact ⟨rfl, rfl, rfl, rfl, hdis, hoff, hcnt⟩
  | cons e rest =>
    have he := (step_scheduled hi.cfg_wf hs).symm.trans h
    by_cases hf : e = .foreground
    · subst hf
      rcases hk : s.txPhase with _ | i
      · exact absurd hk hp
      · have htx : txStep i { s with schedule := rest } = .next t :=
          (foregroundStep_sending (s := { s with schedule := rest }) hk).symm.trans he
        obtain ⟨hbuf, hwr, hrd, hsr, -⟩ := txStep_frame htx
        exact ⟨hbuf, hwr, hrd, hsr, txStep_keeps_offline (s := { s with schedule := rest }) hk htx hdis hoff hcnt⟩
    · have ht := agentStep_disabled (s := { s with schedule := rest }) hf (by simp [State.captureEnabled, hdis]) he
      rw [ht]
      exact ⟨rfl, rfl, rfl, rfl, hdis, hoff, hcnt⟩

/-- Settles O50: the pins are released because the invariant gives the drives of the idle phase. -/
theorem sendByteReturnState : Obligations.SendByteReturnState := by
  intro s t hi hp h hidle
  obtain ⟨hbuf, hwr, hrd, -, harm, hon, hcnt⟩ := transmissionFreezesTheReceivePath s t hi hp h
  have hret : t.ret = .done := by
    rcases step_sending_returns_or_keeps_ret hp h with ⟨-, hr⟩ | ⟨hn, -⟩
    · exact hr
    · exact absurd hidle hn
  obtain ⟨u, hu, hit⟩ := everyStepIsSafeAndKeepsInv s hi
  cases h.symm.trans hu
  have hclk := hit.clock_pin
  have hdata := hit.data_pin
  rw [hidle] at hclk hdata
  exact ⟨hret, hclk, hdata, hon, harm, hcnt, queue_congr (parametersNeverChange s t h) hbuf hwr hrd⟩

/-- Outside a transmission no wait is in its loop. -/
theorem Inv.not_waiting_of_idle {s : State} (h : Inv s) (hp : s.txPhase = .idle) : s.waiting ≠ true := by
  intro hw
  obtain ⟨i, hi, -⟩ := h.waiting_phase hw
  cases hp.symm.trans hi

/-! ### The other agents between two foreground steps -/

/-- Agents other than the foreground have led from `s` to `t`, and the tick has advanced by `k`. -/
structure OthersStepped (k : Nat) (s t : State) : Prop where
  frame : t = { s with
    buf := t.buf, wr := t.wr, capCnt := t.capCnt, capSr := t.capSr, dClk := t.dClk, dData := t.dData, tick := t.tick
    schedule := t.schedule }
  tick : t.tick = (s.tick + k) % s.cfg.tickMod

theorem OthersStepped.refl {s : State} (h : Inv s) : OthersStepped 0 s s :=
  ⟨rfl, (Nat.mod_eq_of_lt h.tick_lt).symm⟩

theorem OthersStepped.trans {k k' : Nat} {s t u : State} (h : OthersStepped k s t) (h' : OthersStepped k' t u) :
    OthersStepped (k + k') s u where
  frame := by
    rw [h'.frame]
    conv_lhs => rw [h.frame]
  tick := by
    have hc : t.cfg = s.cfg := by rw [h.frame]
    rw [h'.tick, h.tick, hc, Nat.mod_add_mod, Nat.add_assoc]

/-- The snapshot taken, the elapsed time is what the tick has advanced by. -/
theorem OthersStepped.elapsed {k : Nat} {s t : State} (h : OthersStepped k s t) (hi : Inv s) (hw : s.waitT0 = s.tick)
    (hk : k < s.cfg.tickMod) : t.elapsed = k := by
  have hc : t.cfg = s.cfg := by rw [h.frame]
  have h0 : t.waitT0 = s.tick := by rw [h.frame]; exact hw
  exact elapsedIsRightAcrossWrap t k (by rw [h0, hc]; exact hi.tick_lt) (hc ▸ hk) (by rw [h0, hc]; exact h.tick)

theorem agentStep_tick {s t : State} {e : Event} (hi : Inv s) (he : e ≠ .foreground) (h : agentStep e s = .next t) :
    t.tick = (s.tick + tickAdvance e) % s.cfg.tickMod := by
  have same := (Nat.mod_eq_of_lt hi.tick_lt).symm
  cases e with
  | foreground => exact absurd rfl he
  | device c d => rw [deviceStep_frame h]; exact same
  | tick k => cases h; rfl
  | captureError => rw [captureErrorStep_frame h]; exact same

theorem Inv.step_others {s t : State} {e : Event} {rest : List Event} (hi : Inv s) (hs : s.schedule = e :: rest)
    (he : e ≠ .foreground) (h : step s = .next t) : OthersStepped (tickAdvance e) s t ∧ t.schedule = rest := by
  have hf := outsideAgentsWriteOnlyTheirState s t e rest hi hs he h
  have hsched : t.schedule = rest := by rw [hf]
  refine ⟨⟨hf.trans (by rw [hsched]), ?_⟩, hsched⟩
  exact agentStep_tick (s := { s with schedule := rest })
    (hi.of_environment s.capSr s.dClk s.dData s.ret s.program rest) he ((step_scheduled hi.cfg_wf hs).symm.trans h)

theorem Inv.runs_others {s : State} {es rest : List Event} (hi : Inv s) (he : ∀ e ∈ es, e ≠ .foreground)
    (hs : s.schedule = es ++ rest) :
    ∃ t, Runs es.length s t ∧ OthersStepped (ticksIn es) s t ∧ t.schedule = rest := by
  induction es generalizing s with
  | nil => exact ⟨s, rfl, .refl hi, hs⟩
  | cons e es ih =>
    obtain ⟨u, hu, hiu⟩ := everyStepIsSafeAndKeepsInv s hi
    obtain ⟨hsu, hus⟩ := hi.step_others hs (he e List.mem_cons_self) hu
    obtain ⟨t, ht, hut, hts⟩ := ih hiu (fun e' h => he e' (List.mem_cons_of_mem e h)) hus
    exact ⟨t, runs_succ_iff.2 ⟨u, hu, ht⟩, ticksIn_cons e es ▸ hsu.trans hut, hts⟩

/-- One pass: the other agents' steps, then the foreground's. -/
theorem Inv.runs_pass {s : State} {es rest : List Event} (hi : Inv s) (he : ∀ e ∈ es, e ≠ .foreground)
    (hs : s.schedule = es ++ .foreground :: rest) :
    ∃ u t, OthersStepped (ticksIn es) s u ∧ Inv u ∧ Machine.foregroundStep u = .next t ∧ Runs (es.length + 1) s t ∧
      t.schedule = rest := by
  obtain ⟨u, hr, ho, hus⟩ := hi.runs_others he hs
  have hiu : Inv { u with schedule := rest } :=
    (hi.ofRuns hr).of_environment u.capSr u.dClk u.dData u.ret u.program rest
  obtain ⟨t, ht, -⟩ := hiu.foregroundStep
  have hstep : step u = .next t := (step_scheduled (hi.ofRuns hr).cfg_wf hus).trans ht
  exact ⟨{ u with schedule := rest }, t, ⟨by rw [ho.frame], ho.tick⟩, hiu, ht,
    runs_append hr (runs_succ_iff.2 ⟨t, hstep, rfl⟩), (foregroundStep_frame ht).schedule⟩

/-! ### Where the call stands -/

/-- In a run whose program is the one call `send_byte(b)`, the row of the step table that the call comes to next: 0
before the call, none of the table's after its return. -/
inductive AtRow (b : Byte) (s : State) : Nat → Prop
  | called (phase : s.txPhase = .idle) (noCall : s.ackPhase = .idle) (word : s.program = [cmdWord 4#4 b]) :
      AtRow b s 0
  | sending (i : Nat) (phase : s.txPhase = .at i) (latch : s.txByte = b) (noWord : s.program = []) : AtRow b s i
  | returned (phase : s.txPhase = .idle) (noCall : s.ackPhase = .idle) (noWord : s.program = [])
      (done : s.ret = .done) (offline : s.capOnline = false) (disarmed : s.armed = false) :
      AtRow b s (s.cfg.txLast + 1)

section AtRow

variable {b : Byte} {s t : State} {i : Nat}

/-- Where the call stands is not for the buffer, the samples, the inputs and the waits to say. -/
theorem AtRow.keep (h : AtRow b s i)
    (hf : t = { s with
      buf := t.buf, wr := t.wr, capCnt := t.capCnt, capSr := t.capSr, dClk := t.dClk, dData := t.dData, tick := t.tick
      waitT0 := t.waitT0, waiting := t.waiting, schedule := t.schedule }) : AtRow b t i := by
  rw [hf]
  cases h with
  | called phase noCall word => exact .called phase noCall word
  | sending i phase latch noWord => exact .sending i phase latch noWord
  | returned phase noCall noWord done offline disarmed => exact .returned phase noCall noWord done offline disarmed

theorem AtRow.others {k : Nat} (h : AtRow b s i) (ho : OthersStepped k s t) : AtRow b t i :=
  h.keep (by rw [ho.frame])

theorem AtRow.le (h : AtRow b s i) (hi : Inv s) : i ≤ s.cfg.txLast + 1 := by
  cases h with
  | called _ _ _ => exact Nat.zero_le _
  | sending i phase _ _ => exact Nat.le_succ_of_le (hi.phase_range i phase).2
  | returned _ _ _ _ _ _ => exact Nat.le_refl _

/-- A wait is in its loop only at a wait's row. -/
theorem AtRow.isWaitPhase_of_waiting (h : AtRow b s i) (hi : Inv s) (hw : s.waiting = true) :
    isWaitPhase s.cfg b i = true := by
  obtain ⟨j, hj, hjw⟩ := hi.waiting_phase hw
  cases h with
  | called phase _ _ => cases phase.symm.trans hj
  | sending i phase latch _ => cases phase.symm.trans hj; rwa [latch] at hjw
  | returned phase _ _ _ _ _ => cases phase.symm.trans hj

/-- The same as an inequality, for counting passes. -/
theorem AtRow.waiting_le (h : AtRow b s i) (hi : Inv s) : s.waiting.toNat ≤ (isWaitPhase s.cfg b i).toNat :=
  Bool.toNat_le_toNat (h.isWaitPhase_of_waiting hi)

/-- What the foreground's step does at a row: it enters the row's wait, goes round in it, or comes to the next row. -/
inductive RowStep (b : Byte) (i : Nat) (s t : State) : Prop
  | enter (row : isWaitPhase s.cfg b i = true) (out : s.waiting = false)
      (next : t = { s with waitT0 := s.tick, waiting := true })
  | again (wait : StillWaiting s) (loop : s.waiting = true) (next : t = s)
  | passed (row : AtRow b t (i + 1)) (out : t.waiting = false)

theorem AtRow.rowStep (h : AtRow b s i) (hi : Inv s) (hle : i ≤ s.cfg.txLast)
    (hf : foregroundStep s = .next t) : RowStep b i s t := by
  cases h with
  | called phase noCall word =>
    have decoded : decodeCmd (cmdWord 4#4 b) = .ok (.sendByte b) := by simp [decodeCmd]
    rw [foregroundStep_fetch phase noCall word decoded] at hf
    cases (execSendByte_start (s := { s with program := [] }) b phase noCall).symm.trans hf
    exact .passed (.sending 1 rfl rfl rfl) rfl
  | sending i phase latch noWord =>
    obtain ⟨hoff, hdis⟩ := hi.spec.transmit_offline (sending_busy phase)
    subst latch
    rw [foregroundStep_sending phase] at hf
    cases txStepCase phase hf with
    | teardown row => exact .passed (.sending _ rfl rfl noWord) (hi.not_waiting phase (by simp [isWaitPhase, row]))
    | pin a row =>
      exact .passed (.sending _ rfl (State.pin_txByte s a) ((State.pin_program s a).trans noWord))
        ((State.pin_waiting s a).trans (hi.not_waiting phase (by simp [isWaitPhase, row])))
    | hold row => exact .passed (.sending _ rfl rfl noWord) (hi.not_waiting phase (by simp [isWaitPhase, row]))
    | enter row out => exact .enter row out rfl
    | again wait loop => exact .again wait loop rfl
    | passed l row => exact .passed (.sending _ rfl rfl noWord) rfl
    | finish row =>
      cases txAction_row row
      exact .passed (.returned rfl (hi.one_call (sending_busy phase)) noWord rfl hoff hdis) rfl
  | returned _ _ _ _ _ _ => exact absurd hle (Nat.not_succ_le_self _)

/-- Past the last row the call has returned. -/
theorem AtRow.returned_of_end (h : AtRow b s (s.cfg.txLast + 1)) (hi : Inv s) :
    s.txPhase = .idle ∧ s.ackPhase = .idle ∧ s.program = [] ∧ s.ret = .done ∧ s.capOnline = false ∧
      s.armed = false := by
  generalize hj : s.cfg.txLast + 1 = j at h
  cases h with
  | called _ _ _ => cases hj
  | sending j phase _ _ => exact absurd (hi.phase_range j phase).2 (by omega)
  | returned phase noCall noWord done offline disarmed => exact ⟨phase, noCall, noWord, done, offline, disarmed⟩

/-- After the return the foreground finds no word and does nothing. -/
theorem AtRow.quiet (h : AtRow b s (s.cfg.txLast + 1)) (hi : Inv s) : foregroundStep s = .next s := by
  obtain ⟨phase, noCall, noWord, -⟩ := h.returned_of_end hi
  exact foregroundStep_quiet phase noCall noWord

end AtRow

end Sys2Proof.Machine

/-! PROOFS, part 13: the pin actions of `send_byte` and its bounded return. Both are sums over the rows of the step
table still to come. -/

namespace Sys2Proof.Machine

/-! ### The pin actions -/

/-- The pin action of a row of the step table, if it is a pin's row. -/
def rowPin (c : Config) (b : Byte) (i : Nat) : Option PinAction :=
  match txAction c b i with
  | some (.pin a) => some a
  | _ => none

/-- The pin actions of the rows from `i` on. -/
def pinsFrom (c : Config) (b : Byte) (i : Nat) : List PinAction :=
  (List.range' i (c.txLast + 1 - i)).filterMap (rowPin c b)

/-- The rows of the table from `i` on are row `i` and the rows from `i + 1` on. -/
theorem rowsFrom_cons {c : Config} {i : Nat} (h : i ≤ c.txLast) :
    List.range' i (c.txLast + 1 - i) = i :: List.range' (i + 1) (c.txLast + 1 - (i + 1)) := by
  rw [show c.txLast + 1 - i = c.txLast + 1 - (i + 1) + 1 by omega, List.range'_succ]

theorem pinsFrom_of_le {c : Config} (b : Byte) {i : Nat} (h : i ≤ c.txLast) :
    pinsFrom c b i = (rowPin c b i).toList ++ pinsFrom c b (i + 1) := by
  rw [pinsFrom, rowsFrom_cons h, List.filterMap_cons]
  cases rowPin c b i <;> rfl

theorem pinsFrom_end (c : Config) (b : Byte) : pinsFrom c b (c.txLast + 1) = [] := by simp [pinsFrom]

theorem rowPin_of_wait {c : Config} {b : Byte} {i : Nat} (h : isWaitPhase c b i = true) : rowPin c b i = none := by
  rcases (isWaitPhase_iff c b i).1 h with ⟨l, row⟩ | row <;> rw [rowPin, row]

theorem rowPin_end (c : Config) (b : Byte) : rowPin c b (c.txLast + 1) = none := by
  rw [rowPin, txAction_none b (Nat.lt_succ_self _)]

/-- The pin actions of the frame, slot by slot: the data bits, the parity bit, the stop bit (30_encoding.md R95). -/
theorem sendPins_eq (c : Config) (b : Byte) :
    sendPins c b = [.driveLow .clock, .driveLow .data, .release .clock] ++
      ((List.range 8).map fun k => setDataAction (b.getLsbD k)) ++
      [setDataAction (parityBit c b), .release .data] := by
  have bits : (List.range 8).map (fun k => setDataAction ((encodeFrame c b).getLsbD (k + 1))) =
      (List.range 8).map fun k => setDataAction (b.getLsbD k) :=
    List.map_congr_left fun k hk => by rw [encodeFrame_data c b (List.mem_range.1 hk)]
  rw [sendPins, List.range_succ, List.range_succ, List.map_append, List.map_append, bits]
  simp only [List.map_cons, List.map_nil, Nat.reduceAdd, encodeFrame_parity, encodeFrame_stop, List.append_assoc]
  rfl

/-- The pin rows of the whole table are the pin actions of the frame. -/
theorem pinsFrom_zero (c : Config) (b : Byte) : pinsFrom c b 0 = sendPins c b := by
  rw [sendPins_eq]
  rcases c with ⟨_, _, _, _, _, _, _, _, _, _, _ | _⟩ <;> rfl

section Pins

variable {b : Byte} {s t : State} {i : Nat}

/-- A step of another agent makes no pin action. -/
theorem pinActionOf_others {e : Event} {rest : List Event} (hs : s.schedule = e :: rest) (he : e ≠ .foreground) :
    pinActionOf s = none := by
  cases e with
  | foreground => exact absurd rfl he
  | device c d => simp [pinActionOf, hs]
  | tick k => simp [pinActionOf, hs]
  | captureError => simp [pinActionOf, hs]

theorem pinActionOf_idle (hp : s.txPhase = .idle) : pinActionOf s = none := by simp [pinActionOf, hp]

theorem pinActionOf_sending {rest : List Event} (hs : s.schedule = .foreground :: rest) (hp : s.txPhase = .at i) :
    pinActionOf s = rowPin s.cfg s.txByte i := by
  rw [pinActionOf, hs, hp]; rfl

/-- The foreground's step makes the pin action of the row that the call comes to. -/
theorem AtRow.pinActionOf (h : AtRow b s i) {rest : List Event} (hs : s.schedule = .foreground :: rest) :
    pinActionOf s = rowPin s.cfg b i := by
  cases h with
  | called phase _ _ => exact pinActionOf_idle phase
  | sending i phase latch _ => rw [pinActionOf_sending hs phase, latch]
  | returned phase _ _ _ _ _ =>
    rw [pinActionOf_idle phase, rowPin_end]

/-- A step makes the first of the pin actions still to come, or none and leaves them to come. -/
theorem AtRow.step (h : AtRow b s i) (hi : Inv s) (hst : step s = .next t) :
    ∃ j, AtRow b t j ∧ pinsFrom s.cfg b i = (Machine.pinActionOf s).toList ++ pinsFrom s.cfg b j := by
  cases hs : s.schedule with
  | nil =>
    cases (step_unscheduled hi.cfg_wf hs).symm.trans hst
    exact ⟨i, h, by simp [Machine.pinActionOf, hs]⟩
  | cons e rest =>
    by_cases he : e = .foreground
    · subst he
      have hf := (step_scheduled hi.cfg_wf hs).symm.trans hst
      have hi' := hi.of_environment s.capSr s.dClk s.dData s.ret s.program rest
      have h' : AtRow b { s with schedule := rest } i := h.keep rfl
      rw [h.pinActionOf hs]
      by_cases hle : i ≤ s.cfg.txLast
      · rcases h'.rowStep hi' hle hf with ⟨row, -, rfl⟩ | ⟨-, loop, rfl⟩ | ⟨row, -⟩
        · rw [rowPin_of_wait row]
          exact ⟨i, h'.keep rfl, rfl⟩
        · rw [rowPin_of_wait (h'.isWaitPhase_of_waiting hi' loop)]
          exact ⟨i, h', rfl⟩
        · exact ⟨i + 1, row, pinsFrom_of_le b hle⟩
      · have hend : i = s.cfg.txLast + 1 := le_antisymm (h.le hi) (Nat.lt_of_not_le hle)
        subst hend
        cases (h'.quiet hi').symm.trans hf
        exact ⟨_, h', by rw [rowPin_end]; rfl⟩
    · obtain ⟨ho, -⟩ := hi.step_others hs he hst
      exact ⟨i, h.others ho, by rw [pinActionOf_others hs he]; rfl⟩

/-- The pin actions of a run up to the return are those of the rows still to come. -/
theorem AtRow.pinTrace {n : Nat} (h : AtRow b s i) (hi : Inv s) (hr : Runs n s t) (hp : t.txPhase = .idle)
    (hq : t.program = []) : pinTrace n s = pinsFrom s.cfg b i := by
  induction n generalizing s i with
  | zero =>
    cases hr
    cases h with
    | called _ _ word => cases word.symm.trans hq
    | sending i phase _ _ => cases phase.symm.trans hp
    | returned _ _ _ _ _ _ => exact (pinsFrom_end _ b).symm
  | succ n ih =>
    obtain ⟨u, hu, hr⟩ := runs_succ_iff.1 hr
    obtain ⟨j, hj, hpins⟩ := h.step hi hu
    obtain ⟨v, hv, hiv⟩ := everyStepIsSafeAndKeepsInv s hi
    cases hu.symm.trans hv
    rw [hpins, ← parametersNeverChange s u hu, ← ih hj hiv hr]
    simp only [Machine.pinTrace, hu]

end Pins

/-- Settles O51: before the call all rows of the table are still to come. -/
theorem sendBytePinsAreTheFrame : Obligations.SendBytePinsAreTheFrame := by
  intro s b hi hp ha hq n t hr htp htq
  rw [← pinsFrom_zero]
  exact (AtRow.called hp ha hq).pinTrace hi hr htp htq

/-! ### The passes -/

/-- How many passes the rows from `i` on take if every wait is over at the pass after its entry. -/
def passesFrom (c : Config) (b : Byte) (i : Nat) : Nat :=
  ((List.range' i (c.txLast + 1 - i)).map fun j => 1 + (isWaitPhase c b j).toNat).sum

theorem passesFrom_of_le {c : Config} (b : Byte) {i : Nat} (h : i ≤ c.txLast) :
    passesFrom c b i = 1 + (isWaitPhase c b i).toNat + passesFrom c b (i + 1) := by
  rw [passesFrom, rowsFrom_cons h, List.map_cons, List.sum_cons, passesFrom]

theorem passesFrom_end (c : Config) (b : Byte) : passesFrom c b (c.txLast + 1) = 0 := by simp [passesFrom]

/-- 36 rows with 21 waits, or 38 rows with 23. -/
theorem passesFrom_zero (c : Config) (b : Byte) :
    passesFrom c b 0 = if c.txExtraWaits then 61 else 57 := by
  cases hx : c.txExtraWaits <;>
    simp [passesFrom, Config.txLast, hx, List.range', isWaitPhase, txAction]

/-- The device steps of one round, and its tick. -/
def roundGap (T : Nat) (d : List (Drive × Drive)) : List Event := d.map (fun p => .device p.1 p.2) ++ [.tick T]

theorem rounds_cons (T : Nat) (d : List (Drive × Drive)) (ds : List (List (Drive × Drive))) :
    rounds T (d :: ds) = roundGap T d ++ .foreground :: rounds T ds := by simp [rounds, roundGap]

theorem roundGap_others (T : Nat) (d : List (Drive × Drive)) : ∀ e ∈ roundGap T d, e ≠ .foreground := by
  intro e he
  simp only [roundGap, List.mem_append, List.mem_map, List.mem_singleton] at he
  rcases he with ⟨p, -, rfl⟩ | rfl <;> exact Event.noConfusion

theorem ticksIn_roundGap (T : Nat) (d : List (Drive × Drive)) : ticksIn (roundGap T d) = T := by
  induction d with
  | nil => simp [roundGap, tickAdvance]
  | cons p d ih => simpa [roundGap, tickAdvance] using ih

/-- If each round of `T` ticks takes one off the count of passes that `P` allows, the count of rounds is enough. -/
theorem Inv.runs_rounds {c : Config} {T : Nat} {P : Nat → State → Prop}
    (pass : ∀ {n s u t}, s.cfg = c → Inv s → P (n + 1) s → OthersStepped T s u → Inv u →
      Machine.foregroundStep u = .next t → P n t)
    {s : State} (hi : Inv s) (hc : s.cfg = c) {ds : List (List (Drive × Drive))} (hP : P ds.length s)
    (hs : s.schedule = rounds T ds) : ∃ t, Runs s.schedule.length s t ∧ Inv t ∧ P 0 t := by
  induction ds generalizing s with
  | nil =>
    rw [hs]
    exact ⟨s, rfl, hi, hP⟩
  | cons d ds ih =>
    rw [rounds_cons] at hs
    obtain ⟨u, t, hsu, hiu, hut, hst, hts⟩ := hi.runs_pass (roundGap_others T d) hs
    rw [ticksIn_roundGap] at hsu
    have htc : t.cfg = c := by rw [(foregroundStep_frame hut).cfg, hsu.frame]; exact hc
    obtain ⟨v, htv, hiv, hPv⟩ := ih (hi.ofRuns hst) htc (pass hc hi hP hsu hiu hut) hts
    refine ⟨v, ?_, hiv, hPv⟩
    have hlen : s.schedule.length = (roundGap T d).length + 1 + t.schedule.length := by
      rw [hs, hts, List.length_append, List.length_cons]; omega
    exact hlen ▸ runs_append hst htv

/-- `n` passes are enough for the rows still to come; a wait in its loop has just been entered. -/
def SendsWithin (b : Byte) (n : Nat) (s : State) : Prop :=
  ∃ i, AtRow b s i ∧ passesFrom s.cfg b i ≤ n + s.waiting.toNat ∧ (s.waiting = true → s.waitT0 = s.tick)

/-- The time of a wait of `send_byte` that goes round has not run out. -/
theorem StillWaiting.elapsed_lt {s : State} {T : Nat} (h : StillWaiting s) (hw : s.waiting = true) (hi : Inv s)
    (hc : s.cfg.tClkWait ≤ T) (hd : s.cfg.tIdle ≤ T) : s.elapsed < T := by
  cases h with
  | clk i l phase row loop level time => exact time.trans_le hc
  | idle i phase row loop level time => exact time.trans_le hd
  | ack phase loop level time => exact absurd hw (hi.not_waiting_of_idle phase)

theorem SendsWithin.pass {b : Byte} {n k : Nat} {s u t : State} (h : SendsWithin b (n + 1) s) (hi : Inv s)
    (hc : s.cfg.tClkWait ≤ k) (hd : s.cfg.tIdle ≤ k) (hk : k < s.cfg.tickMod) (ho : OthersStepped k s u) (hiu : Inv u)
    (hf : foregroundStep u = .next t) : SendsWithin b n t := by
  obtain ⟨i, hrow, hn, hsnap⟩ := h
  have hcfg : u.cfg = s.cfg := by rw [ho.frame]
  have hwait : u.waiting = s.waiting := by rw [ho.frame]
  have htc : t.cfg = s.cfg := (foregroundStep_frame hf).cfg.trans hcfg
  have hrow' := hrow.others ho
  rw [← hwait] at hn hsnap
  by_cases hle : i ≤ u.cfg.txLast
  · rw [passesFrom_of_le b (hcfg ▸ hle), ← hcfg] at hn
    rcases hrow'.rowStep hiu hle hf with ⟨row, out, rfl⟩ | ⟨wait, loop, -⟩ | ⟨row, out⟩
    · refine ⟨i, hrow'.keep rfl, ?_, fun _ => rfl⟩
      rw [out] at hn
      show passesFrom u.cfg b i ≤ n + 1
      rw [passesFrom_of_le b hle]
      exact hn
    · have hlt := wait.elapsed_lt loop hiu (hcfg ▸ hc) (hcfg ▸ hd)
      rw [ho.elapsed hi (hsnap loop) hk] at hlt
      exact absurd hlt (Nat.lt_irrefl k)
    · refine ⟨i + 1, row, ?_, fun hw => by rw [out] at hw; cases hw⟩
      rw [out, htc, ← hcfg]
      have hwait := hrow'.waiting_le hiu
      show _ ≤ n
      omega
  · have hend : i = u.cfg.txLast + 1 := le_antisymm (hrow'.le hiu) (Nat.lt_of_not_le hle)
    subst hend
    cases (hrow'.quiet hiu).symm.trans hf
    have hout := hiu.not_waiting_of_idle (hrow'.returned_of_end hiu).1
    exact ⟨_, hrow', by rw [passesFrom_end]; exact Nat.zero_le _, fun hw => absurd hw hout⟩

/-- With no pass left the call has returned: a row takes a pass, and a wait in its loop a second one. -/
theorem SendsWithin.returned {b : Byte} {s : State} (h : SendsWithin b 0 s) (hi : Inv s) :
    AtRow b s (s.cfg.txLast + 1) := by
  obtain ⟨i, hrow, hn, -⟩ := h
  by_cases hle : i ≤ s.cfg.txLast
  · have hwait := hrow.waiting_le hi
    rw [passesFrom_of_le b hle] at hn
    omega
  · rwa [le_antisymm (hrow.le hi) (Nat.lt_of_not_le hle)] at hrow

/-- Settles O52: a round takes one off the passes still needed, at most 61 before the call. -/
theorem sendByteAlwaysReturns : Obligations.SendByteAlwaysReturns := by
  intro s b T ds hi hp ha hq hclk hidle hT hds hs
  have start : SendsWithin b ds.length s := by
    have h61 : passesFrom s.cfg b 0 ≤ 61 := by rw [passesFrom_zero]; split <;> decide
    exact ⟨0, .called hp ha hq, by omega, fun hw => absurd hw (hi.not_waiting_of_idle hp)⟩
  obtain ⟨t, hr, hit, hP⟩ := hi.runs_rounds (c := s.cfg) (P := SendsWithin b)
    (fun hc hi' h ho hiu hf => h.pass hi' (hc ▸ hclk) (hc ▸ hidle) (hc ▸ hT) ho hiu hf) rfl start hs
  obtain ⟨phase, -, noWord, done, offline, disarmed⟩ := (hP.returned hit).returned_of_end hit
  have hc := hit.clock_pin
  have hd := hit.data_pin
  rw [phase] at hc hd
  exact ⟨t, hr, phase, noWord, done, hc, hd, offline, disarmed, hit.spec.disarmed_no_frame disarmed⟩

end Sys2Proof.Machine

/-! PROOFS, part 14: the results of `get_ack` and its bounded return. -/

namespace Sys2Proof.Machine

/-! ### The results by case -/

section Acking

variable {s : State}

/-- A `get_ack` in progress excludes a transmission. -/
theorem Inv.idle_of_acking (h : Inv s) (ha : s.ackPhase ≠ .idle) : s.txPhase = .idle :=
  by_contra fun hp => ha (h.one_call hp)

/-- The foreground's scheduled step during `get_ack`. -/
theorem Inv.step_acking (h : Inv s) {rest : List Event} (hs : s.schedule = .foreground :: rest)
    (ha : s.ackPhase ≠ .idle) : step s = execGetAck { s with schedule := rest } :=
  (step_scheduled h.cfg_wf hs).trans
    (foregroundStep_acking (s := { s with schedule := rest }) (h.idle_of_acking ha) ha)

theorem Inv.count_zero_of_queue_nil (h : Inv s) (hq : s.queue = []) : s.count = 0 := by
  rw [← h.queue_length, hq]; rfl

/-- (g6) and (g7): the byte at the head of the queue is taken and compared, and the call returns. -/
theorem Inv.runs_take_and_compare (h : Inv s) (ha : s.ackPhase = .g6) {v : Byte} {q : List Byte} {rest : List Event}
    (hq : s.queue = v :: q) (hs : s.schedule = .foreground :: .foreground :: rest) :
    ∃ t, Runs 2 s t ∧ t.queue = q ∧
      t = { s with
        rd := t.rd, ackPhase := .idle, ret := .bool (decide (v = s.cfg.ackCode)), schedule := rest } := by
  have busy : s.ackPhase ≠ .idle := by rw [ha]; exact AckPhase.noConfusion
  have hp := h.idle_of_acking busy
  have hi := h.of_environment s.capSr s.dClk s.dData s.ret s.program (.foreground :: rest)
  rcases popByte_queue hi with ⟨hnil, -⟩ | ⟨w, u, hpop, hcons⟩
  · cases hnil.symm.trans hq
  · cases hcons.symm.trans hq
    obtain ⟨-, hnone, -⟩ | ⟨-, -, -, -, -, hu⟩ := popByte_cases hpop
    · cases hnone
    · have take : step s = .next { u with ackPhase := .g7 v } :=
        (h.step_acking hs busy).trans (execGetAck_g6_byte hp ha hpop)
      subst hu
      obtain ⟨t, ht, hit⟩ := everyStepIsSafeAndKeepsInv s h
      cases take.symm.trans ht
      have compare := (hit.step_acking (rest := rest) rfl AckPhase.noConfusion).trans
        (execGetAck_g7 (v := v) hp rfl)
      exact ⟨_, runs_succ_iff.2 ⟨_, take, runs_succ_iff.2 ⟨_, compare, rfl⟩⟩, rfl, rfl⟩

end Acking

/-- Settles O54: (g5) finds the byte or the time run out. -/
theorem getAckResultByCase : Obligations.GetAckResultByCase := by
  intro s rest hi ha
  have busy : s.ackPhase ≠ .idle := by rw [ha]; exact AckPhase.noConfusion
  have hp := hi.idle_of_acking busy
  have harm : s.armed = true := by
    have ready := hi.ack_ready
    rwa [ha] at ready
  have hon := hi.spec.armed_online harm
  refine ⟨fun v q hq hs => ?_, fun hq ht hs => ?_⟩
  · have hb : s.hasBytes 1 = true := by
      rw [hasBytes_iff, ← hi.queue_length, hq]; exact Nat.le_add_left 1 _
    have found := (hi.step_acking hs busy).trans
      (execGetAck_g5_byte (s := { s with schedule := .foreground :: .foreground :: rest }) hp ha hb)
    obtain ⟨u, hu, hiu⟩ := everyStepIsSafeAndKeepsInv s hi
    cases found.symm.trans hu
    obtain ⟨t, hr, htq, hf⟩ := hiu.runs_take_and_compare rfl hq rfl
    refine ⟨t, runs_succ_iff.2 ⟨_, found, hr⟩, ?_, htq, ?_, ?_, ?_, ?_⟩ <;> rw [hf]
    · exact harm
    · exact hon
  · have timeout := (hi.step_acking hs busy).trans
      (execGetAck_g5_timeout (s := { s with schedule := rest }) hp ha
        (hasBytes_one_of_count_zero (hi.count_zero_of_queue_nil hq)) ht)
    exact ⟨_, runs_succ_iff.2 ⟨_, timeout, rfl⟩, rfl, hq, rfl, harm, hon, rfl⟩

/-! ### The passes -/

/-- How many passes a `get_ack` in progress takes if the time has run out at the pass after (g4). -/
def ackPassesLeft : AckPhase → Nat
  | .idle => 0
  | .g2 => 6
  | .g3 => 5
  | .g4 => 4
  | .g5 => 3
  | .g6 => 2
  | .g7 _ => 1

/-- In a run whose program is the one call `get_ack()`, the passes that the call still takes. -/
inductive AckLeft (s : State) : Nat → Prop
  | called (phase : s.txPhase = .idle) (noCall : s.ackPhase = .idle) (word : s.program = [0x500#12]) : AckLeft s 7
  | acking (phase : s.txPhase = .idle) (call : s.ackPhase ≠ .idle) (noWord : s.program = []) :
      AckLeft s (ackPassesLeft s.ackPhase)
  | returned (r : Bool) (phase : s.txPhase = .idle) (noCall : s.ackPhase = .idle) (noWord : s.program = [])
      (result : s.ret = .bool r) (armed : s.armed = true) : AckLeft s 0

/-- `n` passes are enough; a wait in its loop has just been entered. -/
def AcksWithin (n : Nat) (s : State) : Prop :=
  ∃ m ≤ n, AckLeft s m ∧ (s.ackPhase = .g5 → s.waitT0 = s.tick)

section AckLeft

variable {s t : State} {m n : Nat}

theorem AckLeft.others {k : Nat} (h : AckLeft s m) (ho : OthersStepped k s t) : AckLeft t m := by
  rw [ho.frame]
  cases h with
  | called phase noCall word => exact .called phase noCall word
  | acking phase call noWord => exact .acking phase call noWord
  | returned r phase noCall noWord result armed => exact .returned r phase noCall noWord result armed

/-- The call goes on to position `p`. -/
theorem AcksWithin.acking {p : AckPhase} (hk : t.ackPhase = p) (h0 : p ≠ .idle) (hp : t.txPhase = .idle)
    (hq : t.program = []) (hle : ackPassesLeft p ≤ n) (hs : p = .g5 → t.waitT0 = t.tick) : AcksWithin n t := by
  subst hk
  exact ⟨_, hle, .acking hp h0 hq, hs⟩

/-- The call returns `b`. -/
theorem AcksWithin.ackReturn (n : Nat) (b : Bool) (hp : s.txPhase = .idle) (hq : s.program = [])
    (ha : s.armed = true) : AcksWithin n (s.ackReturn b) :=
  ⟨0, Nat.zero_le n, .returned b hp rfl hq rfl ha, AckPhase.noConfusion⟩

/-- A step of the call takes one off the passes left, if (g5) finds the time run out. -/
theorem AcksWithin.of_getAckStep {p : AckPhase} (hi : Inv s) (hp : s.txPhase = .idle) (hk : s.ackPhase = p)
    (h0 : p ≠ .idle) (hq : s.program = []) (ht : p = .g5 → s.cfg.tAck ≤ s.elapsed) (hf : execGetAck s = .next t)
    (hn : ackPassesLeft p ≤ n + 1) : AcksWithin n t := by
  have ready := hi.ack_ready
  rw [hk] at ready
  have hle := Nat.pred_le_iff.2 hn
  cases p with
  | idle => exact absurd rfl h0
  | g2 =>
    cases (execGetAck_g2 hp hk).symm.trans hf
    exact .acking rfl AckPhase.noConfusion hp hq hle AckPhase.noConfusion
  | g3 =>
    cases (execGetAck_g3 hp hk).symm.trans hf
    exact .acking rfl AckPhase.noConfusion (s.arm_txPhase.trans hp) (s.arm_program.trans hq) hle AckPhase.noConfusion
  | g4 =>
    cases (execGetAck_g4 hp hk).symm.trans hf
    exact .acking rfl AckPhase.noConfusion hp hq hle fun _ => rfl
  | g5 =>
    cases hb : s.hasBytes 1 with
    | true =>
      cases (execGetAck_g5_byte hp hk hb).symm.trans hf
      exact .acking rfl AckPhase.noConfusion hp hq hle AckPhase.noConfusion
    | false =>
      cases (execGetAck_g5_timeout hp hk hb (ht rfl)).symm.trans hf
      exact .ackReturn n _ hp hq ready
  | g6 =>
    rcases hi.popByte with ⟨-, hpop⟩ | ⟨-, v, hpop⟩
    · cases (execGetAck_g6_empty hp hk hpop).symm.trans hf
      exact .ackReturn n _ hp hq ready.1
    · cases (execGetAck_g6_byte hp hk hpop).symm.trans hf
      exact .acking rfl AckPhase.noConfusion hp hq hle AckPhase.noConfusion
  | g7 v =>
    cases (execGetAck_g7 hp hk).symm.trans hf
    exact .ackReturn n _ hp hq ready

theorem AcksWithin.pass {k : Nat} {u : State} (h : AcksWithin (n + 1) s) (hi : Inv s) (hT : s.cfg.tAck ≤ k)
    (hk : k < s.cfg.tickMod) (ho : OthersStepped k s u) (hiu : Inv u) (hf : foregroundStep u = .next t) :
    AcksWithin n t := by
  obtain ⟨m, hm, hleft, hsnap⟩ := h
  have hcfg : u.cfg = s.cfg := by rw [ho.frame]
  have hack : u.ackPhase = s.ackPhase := by rw [ho.frame]
  cases hleft.others ho with
  | called phase noCall word =>
    rw [foregroundStep_fetch phase noCall word (i := .getAck) rfl] at hf
    cases (execGetAck_start (s := { u with program := [] }) phase noCall).symm.trans hf
    exact ⟨6, Nat.le_of_succ_le_succ hm, .acking phase AckPhase.noConfusion rfl, AckPhase.noConfusion⟩
  | acking phase call noWord =>
    rw [foregroundStep_acking phase call] at hf
    refine .of_getAckStep hiu phase rfl call noWord (fun h5 => ?_) hf hm
    rw [ho.elapsed hi (hsnap (hack.symm.trans h5)) hk, hcfg]
    exact hT
  | returned r phase noCall noWord result armed =>
    cases (foregroundStep_quiet phase noCall noWord).symm.trans hf
    exact ⟨0, Nat.zero_le n, .returned r phase noCall noWord result armed, fun h5 => by rw [noCall] at h5; cases h5⟩

end AckLeft

theorem ackPassesLeft_pos {p : AckPhase} (h : p ≠ .idle) : 0 < ackPassesLeft p := by
  cases p with
  | idle => exact absurd rfl h
  | _ => exact Nat.succ_pos _

/-- Settles O55: a round takes one off the passes left, seven before the call. -/
theorem getAckAlwaysReturns : Obligations.GetAckAlwaysReturns := by
  intro s T ds hi hp ha hq hack hT hds hs
  have start : AcksWithin ds.length s := ⟨7, hds, .called hp ha hq, fun h5 => by rw [ha] at h5; cases h5⟩
  obtain ⟨t, hr, hit, m, hm, hleft, -⟩ := hi.runs_rounds (c := s.cfg) (P := AcksWithin)
    (fun hc hi' h ho hiu hf => h.pass hi' (hc ▸ hack) (hc ▸ hT) ho hiu hf) rfl start hs
  cases hleft with
  | called _ _ _ => cases hm
  | acking _ call _ => exact absurd (ackPassesLeft_pos call) (Nat.not_lt.2 hm)
  | returned r phase noCall noWord result armed =>
    exact ⟨t, r, hr, phase, noCall, noWord, result, armed, hit.spec.armed_online armed⟩

end Sys2Proof.Machine

/-! PROOFS, part 15: no agent's step reads the steps still to come, so a run that uses up its schedule is a run of every
longer schedule too. -/

namespace Sys2Proof.Machine

/-- `s` with another list of steps still to come. -/
def State.withSchedule (s : State) (es : List Event) : State := { s with schedule := es }

/-- The outcome with another list of steps still to come. -/
def reschedule (es : List Event) (r : Result) : Result := andThen r fun t => .next (t.withSchedule es)

section Schedule

variable (s : State) (es : List Event)

theorem pushByte_withSchedule (b : Byte) : pushByte (s.withSchedule es) b = reschedule es (pushByte s b) := by
  by_cases hf : s.succIndex s.wr = s.rd
  · rw [pushByte_full b hf, pushByte_full (s := s.withSchedule es) b hf]; rfl
  · by_cases hw : s.wr < s.cfg.fifoN
    · rw [pushByte_store b hw hf, pushByte_store (s := s.withSchedule es) b hw hf]; rfl
    · have hw := Nat.not_lt.1 hw
      rw [pushByte_fault b hw hf, pushByte_fault (s := s.withSchedule es) b hw hf]; rfl

theorem popByte_withSchedule :
    popByte (s.withSchedule es) = (popByte s).map fun r => (r.1, r.2.withSchedule es) := by
  by_cases he : s.wr = s.rd
  · rw [popByte_empty he, popByte_empty (s := s.withSchedule es) he]; rfl
  · by_cases hr : s.rd < s.cfg.fifoN
    · cases hv : readSlot s.buf s.rd with
      | none => rw [popByte_unwritten he hr hv, popByte_unwritten (s := s.withSchedule es) he hr hv]; rfl
      | some v => rw [popByte_take he hr hv, popByte_take (s := s.withSchedule es) he hr hv]; rfl
    · have hr := Nat.not_lt.1 hr
      rw [popByte_range he hr, popByte_range (s := s.withSchedule es) he hr]; rfl

theorem arm_withSchedule : (s.withSchedule es).arm = s.arm.withSchedule es := by
  cases ha : s.armed with
  | true => rw [State.arm_of_armed ha, State.arm_of_armed (s := s.withSchedule es) ha]
  | false =>
    cases ho : s.capOnline with
    | true => rw [State.arm_of_online ha ho, State.arm_of_online (s := s.withSchedule es) ha ho]; rfl
    | false => rw [State.arm_of_offline ha ho, State.arm_of_offline (s := s.withSchedule es) ha ho]; rfl

theorem rearm_withSchedule : (s.withSchedule es).rearm = s.rearm.withSchedule es :=
  arm_withSchedule { s with armed := false } es

theorem onCaptureComplete_withSchedule (raw : RawFrame) :
    execOnCaptureComplete raw (s.withSchedule es) = reschedule es (execOnCaptureComplete raw s) := by
  cases hv : validateFrame s.cfg raw with
  | none =>
    rw [execOnCaptureComplete_invalid hv, execOnCaptureComplete_invalid (s := s.withSchedule es) hv]
    exact congrArg _ (rearm_withSchedule { s with capCnt := 0 } es)
  | some b =>
    rw [execOnCaptureComplete_valid hv, execOnCaptureComplete_valid (s := s.withSchedule es) hv]
    have push : pushByte { s.withSchedule es with capCnt := 0 } b =
        reschedule es (pushByte { s with capCnt := 0 } b) :=
      pushByte_withSchedule { s with capCnt := 0 } es b
    rw [push]
    cases pushByte { s with capCnt := 0 } b with
    | next t => exact congrArg _ (rearm_withSchedule t es)
    | fault f => rfl
    | refused e => rfl

theorem captureBit_withSchedule (x : Level) :
    execCaptureBit x (s.withSchedule es) = reschedule es (execCaptureBit x s) := by
  by_cases hc : s.capCnt.val + 1 < 11
  · rw [execCaptureBit_store x hc, execCaptureBit_store (s := s.withSchedule es) x hc]; rfl
  · rw [execCaptureBit_complete x hc, execCaptureBit_complete (s := s.withSchedule es) x hc]
    exact onCaptureComplete_withSchedule { s with capSr := s.sampled x, capCnt := 0 } es _

theorem deviceStep_withSchedule (c d : Drive) :
    deviceStep c d (s.withSchedule es) = reschedule es (deviceStep c d s) := by
  cases hs : s.samples c with
  | false => rw [deviceStep_unsampled d hs, deviceStep_unsampled (s := s.withSchedule es) d hs]; rfl
  | true =>
    rw [deviceStep_sampled d hs, deviceStep_sampled (s := s.withSchedule es) d hs]
    exact captureBit_withSchedule { s with dClk := c, dData := d } es _

theorem captureErrorStep_withSchedule :
    captureErrorStep (s.withSchedule es) = reschedule es (captureErrorStep s) := by
  cases he : s.captureEnabled with
  | false => rw [captureErrorStep_disabled he, captureErrorStep_disabled (s := s.withSchedule es) he]; rfl
  | true => rw [captureErrorStep_enabled he, captureErrorStep_enabled (s := s.withSchedule es) he]; rfl

theorem clkWait_withSchedule (i : Nat) (l : Level) :
    afterClkWait i ((s.withSchedule es).waitClkStep l) = (afterClkWait i (s.waitClkStep l)).withSchedule es := by
  cases hw : s.waiting with
  | false => rw [afterClkWait_entry l hw, afterClkWait_entry (s := s.withSchedule es) l hw]; rfl
  | true =>
    by_cases ho : s.clk = l ∨ s.cfg.tClkWait ≤ s.elapsed
    · rw [afterClkWait_over hw ho, afterClkWait_over (s := s.withSchedule es) hw ho]; rfl
    · rw [afterClkWait_again hw ho, afterClkWait_again (s := s.withSchedule es) hw ho]

theorem idleWait_withSchedule :
    afterIdleWait (s.withSchedule es).waitIdleStep = (afterIdleWait s.waitIdleStep).withSchedule es := by
  cases hw : s.waiting with
  | false => rw [afterIdleWait_entry hw, afterIdleWait_entry (s := s.withSchedule es) hw]; rfl
  | true =>
    by_cases ho : (s.clk = .high ∧ s.data = .high) ∨ s.cfg.tIdle ≤ s.elapsed
    · rw [afterIdleWait_over hw ho, afterIdleWait_over (s := s.withSchedule es) hw ho]; rfl
    · rw [afterIdleWait_again hw ho, afterIdleWait_again (s := s.withSchedule es) hw ho]

theorem txStep_withSchedule (i : Nat) : txStep i (s.withSchedule es) = reschedule es (txStep i s) := by
  cases row : txAction s.cfg s.txByte i with
  | none => rw [txStep_none row, txStep_none (s := s.withSchedule es) row]; rfl
  | some a =>
    cases a with
    | teardown => rw [txStep_teardown row, txStep_teardown (s := s.withSchedule es) row]; rfl
    | pin a =>
      rw [txStep_pin row, txStep_pin (s := s.withSchedule es) row]
      rcases a with (_ | _) | (_ | _) <;> rfl
    | hold => rw [txStep_hold row, txStep_hold (s := s.withSchedule es) row]; rfl
    | waitClk l =>
      rw [txStep_waitClk row, txStep_waitClk (s := s.withSchedule es) row, clkWait_withSchedule]; rfl
    | waitIdle => rw [txStep_waitIdle row, txStep_waitIdle (s := s.withSchedule es) row, idleWait_withSchedule]; rfl

theorem getAck_withSchedule (hp : s.txPhase = .idle) :
    execGetAck (s.withSchedule es) = reschedule es (execGetAck s) := by
  cases hk : s.ackPhase with
  | idle => rw [execGetAck_start hp hk, execGetAck_start (s := s.withSchedule es) hp hk]; rfl
  | g2 => rw [execGetAck_g2 hp hk, execGetAck_g2 (s := s.withSchedule es) hp hk]; rfl
  | g3 => rw [execGetAck_g3 hp hk, execGetAck_g3 (s := s.withSchedule es) hp hk, arm_withSchedule]; rfl
  | g4 => rw [execGetAck_g4 hp hk, execGetAck_g4 (s := s.withSchedule es) hp hk]; rfl
  | g5 =>
    cases hb : s.hasBytes 1 with
    | true => rw [execGetAck_g5_byte hp hk hb, execGetAck_g5_byte (s := s.withSchedule es) hp hk hb]; rfl
    | false =>
      by_cases ht : s.cfg.tAck ≤ s.elapsed
      · rw [execGetAck_g5_timeout hp hk hb ht, execGetAck_g5_timeout (s := s.withSchedule es) hp hk hb ht]; rfl
      · have ht := Nat.not_le.1 ht
        rw [execGetAck_g5_again hp hk hb ht, execGetAck_g5_again (s := s.withSchedule es) hp hk hb ht]; rfl
  | g6 =>
    have hpop := popByte_withSchedule s es
    cases hv : popByte s with
    | error f =>
      rw [hv] at hpop
      rw [execGetAck_g6_fault hp hk hv, execGetAck_g6_fault (s := s.withSchedule es) hp hk hpop]; rfl
    | ok r =>
      obtain ⟨_ | v, u⟩ := r <;> rw [hv] at hpop
      · rw [execGetAck_g6_empty hp hk hv, execGetAck_g6_empty (s := s.withSchedule es) hp hk hpop]; rfl
      · rw [execGetAck_g6_byte hp hk hv, execGetAck_g6_byte (s := s.withSchedule es) hp hk hpop]; rfl
  | g7 v => rw [execGetAck_g7 hp hk, execGetAck_g7 (s := s.withSchedule es) hp hk]; rfl

theorem readByte_withSchedule : execReadByte (s.withSchedule es) = reschedule es (execReadByte s) := by
  rw [execReadByte, popByte_withSchedule, execReadByte]
  rcases popByte s with _ | ⟨r, u⟩ <;> rfl

theorem command_withSchedule {w : CmdWord} {i : Instr} (hp : s.txPhase = .idle) (ha : s.ackPhase = .idle)
    (hd : decodeCmd w = .ok i) : exec i (s.withSchedule es) = reschedule es (exec i s) := by
  rcases decodeCmd_cases hd with ⟨rfl, -⟩ | ⟨n, rfl, -⟩ | ⟨rfl, -⟩ | ⟨b, rfl, -⟩ | ⟨rfl, -⟩
  · rw [exec_armReceive, exec_armReceive, arm_withSchedule]; rfl
  · rfl
  · exact readByte_withSchedule s es
  · exact (execSendByte_start (s := s.withSchedule es) b hp ha).trans
      (congrArg (reschedule es) (execSendByte_start b hp ha).symm)
  · exact getAck_withSchedule s es hp

theorem foregroundStep_withSchedule :
    foregroundStep (s.withSchedule es) = reschedule es (foregroundStep s) := by
  cases foregroundCase s with
  | sending i hp =>
    rw [foregroundStep_sending hp, foregroundStep_sending (s := s.withSchedule es) hp, txStep_withSchedule]
  | acking hp ha =>
    rw [foregroundStep_acking hp ha, foregroundStep_acking (s := s.withSchedule es) hp ha, getAck_withSchedule s es hp]
  | quiet hp ha hq =>
    rw [foregroundStep_quiet hp ha hq, foregroundStep_quiet (s := s.withSchedule es) hp ha hq]; rfl
  | refused w ws e hp ha hq hd =>
    rw [foregroundStep_refused hp ha hq hd, foregroundStep_refused (s := s.withSchedule es) hp ha hq hd]; rfl
  | command w ws i hp ha hq hd =>
    rw [foregroundStep_fetch hp ha hq hd, foregroundStep_fetch (s := s.withSchedule es) hp ha hq hd]
    exact command_withSchedule { s with program := ws } es hp ha hd

theorem agentStep_withSchedule (e : Event) : agentStep e (s.withSchedule es) = reschedule es (agentStep e s) := by
  cases e with
  | foreground => exact foregroundStep_withSchedule s es
  | device c d => exact deviceStep_withSchedule s es c d
  | tick k => rfl
  | captureError => exact captureErrorStep_withSchedule s es

end Schedule

/-- The step of the scheduled agent, which reads nothing of the schedule. -/
theorem step_withSchedule_cons {s : State} (hc : s.cfg.wf = true) (e : Event) (es : List Event) :
    step (s.withSchedule (e :: es)) = reschedule es (agentStep e s) :=
  (step_scheduled (s := s.withSchedule (e :: es)) hc rfl).trans (agentStep_withSchedule s es e)

theorem reschedule_eq_next {es : List Event} {r : Result} {t : State} (h : reschedule es r = .next t) :
    ∃ u, r = .next u ∧ t = u.withSchedule es := by
  cases r with
  | next u => exact ⟨u, rfl, (Host.Outcome.next.inj h).symm⟩
  | fault f => cases h
  | refused e => cases h

/-- A run that uses up its schedule is the same run with more steps scheduled after it. -/
theorem runs_withSchedule_append {s t : State} {es : List Event} (rest : List Event)
    (h : Runs es.length (s.withSchedule es) t) :
    Runs es.length (s.withSchedule (es ++ rest)) (t.withSchedule rest) := by
  induction es generalizing s with
  | nil => cases h; rfl
  | cons e es ih =>
    obtain ⟨v, hv, hr⟩ := runs_succ_iff.1 h
    have hc : s.cfg.wf = true := cfg_wf_of_step (s := s.withSchedule (e :: es)) hv
    obtain ⟨u, hu, rfl⟩ := reschedule_eq_next ((step_withSchedule_cons hc e es).symm.trans hv)
    exact runs_succ_iff.2 ⟨u.withSchedule (es ++ rest), by rw [List.cons_append, step_withSchedule_cons hc, hu]; rfl,
      ih hr⟩

end Sys2Proof.Machine

/-! PROOFS, part 16: a call in progress returns if the tick is fair. Every pass of the call is a round of a wait or
lowers the count of the steps left; in a wait that goes round the elapsed time grows with the tick, and it is less than
`2^TICK_W`. -/

namespace Sys2Proof.Machine

theorem call_eq_none_iff (s : State) : s.call = none ↔ s.txPhase = .idle ∧ s.ackPhase = .idle := by
  cases hp : s.txPhase <;> simp [State.call, hp]

/-- How many foreground steps the call in progress takes at most, rounds of a wait not counted: two for each row of the
step table still to come, less the entry of a wait that is in its loop. -/
def State.stepsLeft (s : State) : Nat :=
  match s.txPhase with
  | .at i => 2 * (s.cfg.txLast + 1 - i) - s.waiting.toNat
  | .idle => ackPassesLeft s.ackPhase

theorem stepsLeft_sending {s : State} {i : Nat} (hp : s.txPhase = .at i) :
    s.stepsLeft = 2 * (s.cfg.txLast + 1 - i) - s.waiting.toNat := by rw [State.stepsLeft, hp]

theorem stepsLeft_acking {s : State} (hp : s.txPhase = .idle) : s.stepsLeft = ackPassesLeft s.ackPhase := by
  rw [State.stepsLeft, hp]

/-- `t` is a state inside the call that is in progress at `s`. -/
structure InCall (s t : State) : Prop where
  cfg : t.cfg = s.cfg
  busy : t.call ≠ none
  same : t.txPhase = .idle ↔ s.txPhase = .idle

/-- The call that is in progress at `s` has returned at `t` (43_link_transmit.md R209, R211). -/
structure Returned (s t : State) : Prop where
  quiet : t.call = none
  sent : s.txPhase ≠ .idle → t.ret = .done
  acked : s.txPhase = .idle → (∃ b, t.ret = .bool b) ∧ t.armed = true ∧ t.capOnline = true

/-- What a foreground step from `u`, inside the call in progress at `s`, does: the call returns, it comes nearer to its
end, or its wait goes round. -/
inductive CallStep (s u t : State) : Prop
  | returned (done : Returned s t)
  | onward (inside : InCall s t) (fewer : t.stepsLeft < u.stepsLeft)
  | again (wait : StillWaiting u) (next : t = u)

section Call

variable {s u t : State}

/-- The transmission comes to another of its phases. -/
theorem InCall.sending (h : InCall s u) (hu : u.txPhase ≠ .idle) (hc : t.cfg = u.cfg) (ht : t.txPhase ≠ .idle) :
    InCall s t where
  cfg := hc.trans h.cfg
  busy hn := ht ((call_eq_none_iff t).1 hn).1
  same := ⟨fun hp => absurd hp ht, fun hp => absurd (h.same.2 hp) hu⟩

/-- `get_ack` comes to another of its positions. -/
theorem InCall.acking (h : InCall s u) (hu : u.txPhase = .idle) (hc : t.cfg = u.cfg) (ht : t.txPhase = .idle)
    (ha : t.ackPhase ≠ .idle) : InCall s t where
  cfg := hc.trans h.cfg
  busy hn := ha ((call_eq_none_iff t).1 hn).2
  same := ⟨fun _ => h.same.1 hu, fun _ => ht⟩

/-- A row of the step table is done. -/
theorem CallStep.nextRow (h : InCall s u) (hi : Inv u) {i : Nat} (hp : u.txPhase = .at i) (hc : t.cfg = u.cfg)
    (ht : t.txPhase = .at (i + 1)) : CallStep s u t := by
  refine .onward (h.sending (sending_busy hp) hc (sending_busy ht)) ?_
  have hle := (hi.phase_range i hp).2
  have hw := Bool.toNat_le u.waiting
  rw [stepsLeft_sending hp, stepsLeft_sending ht, hc]
  omega

theorem CallStep.ofTxStep (h : InCall s u) (hi : Inv u) {i : Nat} (hp : u.txPhase = .at i)
    (hf : txStep i u = .next t) : CallStep s u t := by
  have hs : s.txPhase ≠ .idle := fun hs => sending_busy hp (h.same.2 hs)
  cases txStepCase hp hf with
  | teardown row => exact .nextRow h hi hp rfl rfl
  | pin a row => exact .nextRow h hi hp (State.pin_cfg u a) rfl
  | hold row => exact .nextRow h hi hp rfl rfl
  | enter row out =>
    refine .onward (h.sending (sending_busy hp) rfl (sending_busy hp)) ?_
    have hle := (hi.phase_range i hp).2
    rw [stepsLeft_sending hp, out, stepsLeft_sending (s := { u with waitT0 := u.tick, waiting := true }) hp]
    show 2 * (u.cfg.txLast + 1 - i) - 1 < 2 * (u.cfg.txLast + 1 - i) - 0
    omega
  | again wait loop => exact .again wait rfl
  | passed l row => exact .nextRow h hi hp rfl rfl
  | finish row =>
    have quiet := (call_eq_none_iff { u with waiting := false, txPhase := .idle, ret := .done }).2
      ⟨rfl, hi.one_call (sending_busy hp)⟩
    exact .returned ⟨quiet, fun _ => rfl, fun hp => absurd hp hs⟩

/-- `get_ack` comes to its next position. -/
theorem CallStep.nextAck (h : InCall s u) (hu : u.txPhase = .idle) (hc : t.cfg = u.cfg) (ht : t.txPhase = u.txPhase)
    (ha : t.ackPhase ≠ .idle) (hn : ackPassesLeft u.ackPhase = ackPassesLeft t.ackPhase + 1) : CallStep s u t := by
  refine .onward (h.acking hu hc (ht.trans hu) ha) ?_
  rw [stepsLeft_acking hu, stepsLeft_acking (ht.trans hu), hn]
  exact Nat.lt_succ_self _

theorem CallStep.ackReturn (h : InCall s u) (hi : Inv u) (hu : u.txPhase = .idle) (ha : u.armed = true) (b : Bool) :
    CallStep s u (u.ackReturn b) :=
  .returned ⟨(call_eq_none_iff (u.ackReturn b)).2 ⟨hu, rfl⟩, fun hs => absurd (h.same.1 hu) hs,
    fun _ => ⟨⟨b, rfl⟩, ha, hi.spec.armed_online ha⟩⟩

theorem count_zero_of_hasBytes_one (h : s.hasBytes 1 = false) : s.count = 0 :=
  Nat.lt_one_iff.1 (Nat.not_le.1 (of_decide_eq_false h))

theorem CallStep.ofGetAck (h : InCall s u) (hi : Inv u) (hu : u.txPhase = .idle) (ha : u.ackPhase ≠ .idle)
    (hf : execGetAck u = .next t) : CallStep s u t := by
  have ready := hi.ack_ready
  cases hk : u.ackPhase with
  | idle => exact absurd hk ha
  | g2 =>
    cases (execGetAck_g2 hu hk).symm.trans hf
    exact .nextAck h hu rfl rfl AckPhase.noConfusion (congrArg ackPassesLeft hk)
  | g3 =>
    cases (execGetAck_g3 hu hk).symm.trans hf
    exact .nextAck h hu u.arm_cfg u.arm_txPhase AckPhase.noConfusion (congrArg ackPassesLeft hk)
  | g4 =>
    cases (execGetAck_g4 hu hk).symm.trans hf
    exact .nextAck h hu rfl rfl AckPhase.noConfusion (congrArg ackPassesLeft hk)
  | g5 =>
    rw [hk] at ready
    cases hb : u.hasBytes 1 with
    | true =>
      cases (execGetAck_g5_byte hu hk hb).symm.trans hf
      exact .nextAck h hu rfl rfl AckPhase.noConfusion (congrArg ackPassesLeft hk)
    | false =>
      by_cases ht : u.cfg.tAck ≤ u.elapsed
      · cases (execGetAck_g5_timeout hu hk hb ht).symm.trans hf
        exact .ackReturn h hi hu ready false
      · have ht := Nat.not_le.1 ht
        cases (execGetAck_g5_again hu hk hb ht).symm.trans hf
        exact .again (.ack hu hk (count_zero_of_hasBytes_one hb) ht) rfl
  | g6 =>
    rw [hk] at ready
    rcases hi.popByte with ⟨-, hpop⟩ | ⟨-, v, hpop⟩
    · cases (execGetAck_g6_empty hu hk hpop).symm.trans hf
      exact .ackReturn h hi hu ready.1 false
    · cases (execGetAck_g6_byte hu hk hpop).symm.trans hf
      exact .nextAck h hu rfl rfl AckPhase.noConfusion (congrArg ackPassesLeft hk)
  | g7 v =>
    rw [hk] at ready
    cases (execGetAck_g7 hu hk).symm.trans hf
    exact .ackReturn h hi hu ready _

theorem InCall.callStep (h : InCall s u) (hi : Inv u) (hf : foregroundStep u = .next t) : CallStep s u t := by
  rcases hp : u.txPhase with _ | i
  · have ha : u.ackPhase ≠ .idle := fun ha => h.busy ((call_eq_none_iff u).2 ⟨hp, ha⟩)
    exact .ofGetAck h hi hp ha ((foregroundStep_acking hp ha).symm.trans hf)
  · exact .ofTxStep h hi hp ((foregroundStep_sending hp).symm.trans hf)

/-! ### The other agents meanwhile -/

theorem InCall.others {k : Nat} (h : InCall s t) (ho : OthersStepped k t u) : InCall s u := by
  rw [ho.frame]
  exact ⟨h.cfg, h.busy, h.same⟩

theorem OthersStepped.stepsLeft {k : Nat} (ho : OthersStepped k s t) : t.stepsLeft = s.stepsLeft := by
  rw [ho.frame]; rfl

theorem OthersStepped.elapsed_add {k : Nat} (ho : OthersStepped k s t) (hk : s.elapsed + k < s.cfg.tickMod) :
    t.elapsed = s.elapsed + k := by
  have hc : t.cfg = s.cfg := by rw [ho.frame]
  have hw : t.waitT0 = s.waitT0 := by rw [ho.frame]
  have hmod : t.elapsed = (s.elapsed + k) % s.cfg.tickMod := by
    rw [State.elapsed, State.elapsed, hc, hw, ho.tick, modSub, modSub, Nat.mod_add_mod, Nat.mod_add_mod,
      Nat.add_right_comm]
  rw [hmod, Nat.mod_eq_of_lt hk]

theorem StillWaiting.elapsed_add_lt {gaps : Nat → List Event} (h : StillWaiting s) (hp : PolledInTime s.cfg gaps)
    (n : Nat) : s.elapsed + ticksIn (gaps n) < s.cfg.tickMod := by
  obtain ⟨hclk, hidle, hack⟩ := hp n
  cases h with
  | clk i l phase row loop level time => omega
  | idle i phase row loop level time => omega
  | ack phase loop level time => omega

end Call

/-! ### The passes of the call, and the fair tick -/

theorem ticksIn_append (es es' : List Event) : ticksIn (es ++ es') = ticksIn es + ticksIn es' := by
  simp [ticksIn]

theorem ticksIn_passes_succ (gaps : Nat → List Event) (n : Nat) :
    ticksIn (passes gaps (n + 1)) = ticksIn (passes gaps n) + ticksIn (gaps n) := by
  simp [passes_succ, ticksIn_append, tickAdvance]

theorem ticksIn_passes_mono (gaps : Nat → List Event) : Monotone fun n => ticksIn (passes gaps n) :=
  monotone_nat_of_le_succ fun n => by rw [ticksIn_passes_succ]; exact Nat.le_add_right _ _

/-- If the tick is fair, it advances past every bound. -/
theorem TickFair.unbounded {gaps : Nat → List Event} (h : TickFair gaps) (T : Nat) :
    ∃ n, T ≤ ticksIn (passes gaps n) := by
  induction T with
  | zero => exact ⟨0, Nat.zero_le _⟩
  | succ T ih =>
    obtain ⟨n, hn⟩ := ih
    obtain ⟨j, hj, ht⟩ := h n
    refine ⟨j + 1, ?_⟩
    rw [ticksIn_passes_succ]
    exact Nat.add_le_add (hn.trans (ticksIn_passes_mono gaps hj)) ht

/-- The first `n` passes lead from `s` to `t`. -/
structure AfterPasses (s : State) (gaps : Nat → List Event) (n : Nat) (t : State) : Prop where
  runs : Runs (passes gaps n).length (s.withSchedule (passes gaps n)) t
  inv : Inv t
  drained : t.schedule = []

section Passes

variable {s t : State} {gaps : Nat → List Event} {n : Nat}

theorem AfterPasses.zero (hi : Inv s) : AfterPasses s gaps 0 (s.withSchedule []) :=
  ⟨rfl, hi.of_environment s.capSr s.dClk s.dData s.ret s.program [], rfl⟩

/-- One more pass: the other agents' steps, then the foreground's. -/
theorem AfterPasses.pass (h : AfterPasses s gaps n t) (ho : OthersOnly gaps) :
    ∃ u v, OthersStepped (ticksIn (gaps n)) t u ∧ Inv u ∧ foregroundStep u = .next v ∧
      AfterPasses s gaps (n + 1) v := by
  have hi : Inv (t.withSchedule (gaps n ++ [.foreground])) :=
    h.inv.of_environment t.capSr t.dClk t.dData t.ret t.program _
  obtain ⟨u, v, hu, hiu, hv, hr, hs⟩ := hi.runs_pass (ho n) rfl
  refine ⟨u, v, ⟨hu.frame, hu.tick⟩, hiu, hv, ?_, hi.ofRuns hr, hs⟩
  rw [passes_succ, List.length_append, List.length_append]
  exact runs_append (runs_withSchedule_append _ h.runs) hr

/-- A pass ends the call, brings it nearer to its end, or is a round of its wait, in which only the other agents have
written. -/
theorem AfterPasses.next (h : AfterPasses s gaps n t) (ho : OthersOnly gaps) (hc : InCall s t) :
    ∃ v, AfterPasses s gaps (n + 1) v ∧
      (Returned s v ∨ InCall s v ∧
        (v.stepsLeft < t.stepsLeft ∨ StillWaiting v ∧ OthersStepped (ticksIn (gaps n)) t v)) := by
  obtain ⟨u, v, hu, hiu, hv, h'⟩ := h.pass ho
  refine ⟨v, h', ?_⟩
  cases (hc.others hu).callStep hiu hv with
  | returned done => exact .inl done
  | onward inside fewer => exact .inr ⟨inside, .inl (hu.stepsLeft ▸ fewer)⟩
  | again wait next =>
    subst next
    exact .inr ⟨hc.others hu, .inr ⟨wait, hu⟩⟩

variable (s gaps) in
/-- The passes lead to the return of the call that is in progress at `s`. -/
def CallReturns : Prop := ∃ n t, AfterPasses s gaps n t ∧ Returned s t

/-- A wait ends, as the elapsed time cannot reach the modulus of the tick while it goes round: `k` passes are enough if
they advance the tick that far. -/
theorem AfterPasses.waitEnds (ho : OthersOnly gaps) (hp : PolledInTime s.cfg gaps) {r k : Nat}
    (onward : ∀ {m v}, AfterPasses s gaps m v → InCall s v → v.stepsLeft < r → CallReturns s gaps)
    (h : AfterPasses s gaps n t) (hc : InCall s t) (hr : t.stepsLeft = r) (hw : StillWaiting t)
    (hk : s.cfg.tickMod + ticksIn (passes gaps n) ≤ t.elapsed + ticksIn (passes gaps (n + k))) :
    CallReturns s gaps := by
  induction k generalizing n t with
  | zero =>
    have hlt := hw.elapsed_add_lt (hc.cfg ▸ hp) n
    rw [hc.cfg] at hlt
    rw [Nat.add_zero] at hk
    omega
  | succ k ih =>
    obtain ⟨v, h', done | ⟨hv, fewer | ⟨wait, hu⟩⟩⟩ := h.next ho hc
    · exact ⟨_, v, h', done⟩
    · exact onward h' hv (hr ▸ fewer)
    · refine ih h' hv (hu.stepsLeft.trans hr) wait ?_
      rw [hu.elapsed_add (hw.elapsed_add_lt (hc.cfg ▸ hp) n), ticksIn_passes_succ,
        show n + 1 + k = n + (k + 1) by omega]
      omega

/-- The call returns, by induction on the steps that it has left. -/
theorem AfterPasses.callReturns (ho : OthersOnly gaps) (hf : TickFair gaps) (hp : PolledInTime s.cfg gaps)
    (h : AfterPasses s gaps n t) (hc : InCall s t) : CallReturns s gaps := by
  induction hr : t.stepsLeft using Nat.strong_induction_on generalizing n t with
  | _ r ih =>
    have onward {m w} (hm : AfterPasses s gaps m w) (hw : InCall s w) (hlt : w.stepsLeft < r) : CallReturns s gaps :=
      ih _ hlt hm hw rfl
    obtain ⟨v, h', done | ⟨hv, fewer | ⟨wait, hu⟩⟩⟩ := h.next ho hc
    · exact ⟨_, v, h', done⟩
    · exact onward h' hv (hr ▸ fewer)
    · obtain ⟨k, hk⟩ := hf.unbounded (s.cfg.tickMod + ticksIn (passes gaps (n + 1)))
      have later := ticksIn_passes_mono gaps (Nat.le_add_left k (n + 1))
      exact h'.waitEnds ho hp onward hv (hu.stepsLeft.trans hr) wait (hk.trans (Nat.le_add_left_of_le later))

end Passes

/-! ### Without the tick -/

/-- On foreground steps alone a wait goes round for ever. -/
theorem StillWaiting.runs_replicate {s : State} (h : StillWaiting s) (hc : s.cfg.wf = true) (n : Nat) :
    Runs n (s.withSchedule (List.replicate n .foreground)) (s.withSchedule []) := by
  induction n with
  | zero => rfl
  | succ n ih =>
    refine runs_succ_iff.2 ⟨s.withSchedule (List.replicate n .foreground), ?_, ih⟩
    rw [List.replicate_succ, step_withSchedule_cons hc, agentStep, h.goes_round]
    rfl

/-- Settles O60: a pass that is no round of a wait brings the call nearer to its end, and the fair tick ends the rounds;
on foreground steps alone a wait has nothing but rounds. -/
theorem callsReturnIfTheTickIsFair : Obligations.CallsReturnIfTheTickIsFair := by
  refine ⟨fun s gaps hi hb ho hf hp => ?_, fun s n hi hw => hw.runs_replicate hi.cfg_wf n⟩
  obtain ⟨n, t, ⟨run, -, drained⟩, ⟨quiet, sent, acked⟩⟩ :=
    (AfterPasses.zero (gaps := gaps) hi).callReturns ho hf hp ⟨rfl, hb, Iff.rfl⟩
  exact ⟨n, t, run, quiet, drained, sent, acked⟩

end Sys2Proof.Machine

/-! PROOFS, part 17: what an error kind says of the operation and the state, and what a command word selects. -/

namespace Sys2Proof.Machine

/-! ### The causes of the error kinds -/

/-- The operation `i` validates the frame `raw` in the step it takes from `s`. -/
def Validates (s : State) (i : Instr) (raw : RawFrame) : Prop :=
  i = .validate raw ∨ i = .onCaptureComplete raw ∨ ∃ x, i = .captureBit x ∧ raw = s.sampled x ∧ s.capCnt.val = 10

/-- The operation `i` is `push` or a caller of it. -/
def Pushes (i : Instr) : Prop := (∃ b, i = .push b) ∨ (∃ raw, i = .onCaptureComplete raw) ∨ ∃ x, i = .captureBit x

/-- The operation `i` takes a step of `send_byte` from `s`, at a row with action `a`. -/
def SendsAtRow (s : State) (i : Instr) (a : TxAction) : Prop :=
  ∃ b p, i = .sendByte b ∧ s.txPhase = .at p ∧ txAction s.cfg s.txByte p = some a

/-- The table of 60_exceptions.md R270: which operation raises which kind, and its cause in the state. -/
inductive ErrorCause (s : State) : Instr → ErrorKind → Prop
  | framing {i : Instr} {raw : RawFrame} (frame : Validates s i raw)
      (bad : rawStart raw = true ∨ rawStop raw = false) : ErrorCause s i .framingError
  | parity {i : Instr} {raw : RawFrame} (frame : Validates s i raw) (start : rawStart raw = false)
      (stop : rawStop raw = true) (bad : rawPar raw ≠ parityBit s.cfg (rawData raw)) : ErrorCause s i .parityError
  | capture : ErrorCause s .onCaptureError .captureError
  | overflow {i : Instr} (push : Pushes i) (full : (s.wr + 1) % s.cfg.fifoN = s.rd) : ErrorCause s i .overflow
  | clkTimeout {i : Instr} {l : Level} (wait : i = .waitClk l ∨ SendsAtRow s i (.waitClk l)) (loop : s.waiting = true)
      (level : s.clk ≠ l) (time : s.cfg.tClkWait ≤ s.elapsed) : ErrorCause s i .clkTimeout
  | idleTimeout {i : Instr} (wait : i = .waitIdle ∨ SendsAtRow s i .waitIdle) (loop : s.waiting = true)
      (level : ¬(s.clk = .high ∧ s.data = .high)) (time : s.cfg.tIdle ≤ s.elapsed) : ErrorCause s i .idleTimeout
  | ackLate (phase : s.ackPhase = .g5) (noByte : s.count = 0) (time : s.cfg.tAck ≤ s.elapsed) :
      ErrorCause s .getAck .ackTimeout
  | ackNoByte (phase : s.ackPhase = .g6) (empty : s.wr = s.rd) : ErrorCause s .getAck .ackTimeout
  | ackWrong (v : Byte) (phase : s.ackPhase = .g7 v) (wrong : v ≠ s.cfg.ackCode) : ErrorCause s .getAck .ackWrong
  | noData (empty : s.wr = s.rd) : ErrorCause s .readByte .noData

section Causes

variable {s : State} {i : Instr} {k : ErrorKind}

theorem cause_of_frameError {raw : RawFrame} (hv : Validates s i raw) (h : frameError s.cfg raw = some k) :
    ErrorCause s i k := by
  by_cases hf : rawStart raw = true ∨ rawStop raw = false
  · cases (frameError_framing hf).symm.trans h
    exact .framing hv hf
  · obtain ⟨hs, ht⟩ : rawStart raw = false ∧ rawStop raw = true := by simpa using hf
    rw [frameError_framed hs ht] at h
    split at h
    · cases h
    · next hp => cases h; exact .parity hv hs ht hp

theorem cause_of_pushError (hp : Pushes i) (h : pushError s = some k) : ErrorCause s i k := by
  unfold pushError at h
  split at h
  · next hf => cases h; exact .overflow hp ((isFull_iff s).1 hf)
  · cases h

theorem cause_of_completionError {raw : RawFrame} (hv : Validates s i raw) (hp : Pushes i)
    (h : completionError raw s = some k) : ErrorCause s i k := by
  unfold completionError at h
  split at h
  · next e he => cases h; exact cause_of_frameError hv he
  · exact cause_of_pushError hp h

/-- A wait raises its own kind, at a pass that finds its condition not met and its time run out. -/
theorem waitError_waitStep {e : ErrorKind} {hit : Bool} {n : Nat} (h : waitError e (waitStep s hit n).1 = some k) :
    k = e ∧ s.waiting = true ∧ hit = false ∧ n ≤ s.elapsed := by
  rcases waitStep_cases s hit n with ⟨-, hw⟩ | ⟨-, -, hw⟩ | ⟨loop, miss, time, hw⟩ | ⟨-, -, -, hw⟩ <;>
    rw [hw] at h <;> cases h
  exact ⟨rfl, loop, miss, time⟩

theorem cause_of_clkWait {l : Level} (hw : i = .waitClk l ∨ SendsAtRow s i (.waitClk l))
    (h : waitError .clkTimeout (s.waitClkStep l).1 = some k) : ErrorCause s i k := by
  obtain ⟨rfl, loop, miss, time⟩ := waitError_waitStep h
  exact .clkTimeout hw loop (of_decide_eq_false miss) time

theorem cause_of_idleWait (hw : i = .waitIdle ∨ SendsAtRow s i .waitIdle)
    (h : waitError .idleTimeout s.waitIdleStep.1 = some k) : ErrorCause s i k := by
  obtain ⟨rfl, loop, miss, time⟩ := waitError_waitStep h
  exact .idleTimeout hw loop (by simpa using miss) time

/-- Only the two kinds of wait rows raise an error. -/
theorem cause_of_txError {b : Byte} {p : Nat} (hp : s.txPhase = .at p) (h : txError p s = some k) :
    ErrorCause s (.sendByte b) k := by
  unfold txError at h
  split at h
  · next l row => exact cause_of_clkWait (.inr ⟨b, p, rfl, hp, row⟩) h
  · next row => exact cause_of_idleWait (.inr ⟨b, p, rfl, hp, row⟩) h
  all_goals cases h

/-- Only the last three positions of `get_ack` raise an error. -/
theorem cause_of_ackError (h : ackError s = some k) : ErrorCause s .getAck k := by
  cases hk : s.ackPhase with
  | idle | g2 | g3 | g4 => simp [ackError, hk] at h
  | g5 =>
    simp only [ackError, hk] at h
    split at h
    · cases h
    · next hb =>
      split at h
      · next ht => cases h; exact .ackLate hk (count_zero_of_hasBytes_one (Bool.eq_false_iff.2 hb)) ht
      · cases h
  | g6 =>
    simp only [ackError, hk] at h
    split at h
    · next he => cases h; exact .ackNoByte hk ((isEmpty_iff s).1 he)
    · cases h
  | g7 v =>
    simp only [ackError, hk] at h
    split at h
    · cases h
    · next hv => cases h; exact .ackWrong v hk hv

theorem cause_of_raises (h : raises i s = some k) : ErrorCause s i k := by
  cases i with
  | validate raw => exact cause_of_frameError (.inl rfl) h
  | push b => exact cause_of_pushError (.inl ⟨b, rfl⟩) h
  | readByte =>
    by_cases he : s.wr = s.rd
    · cases (raises_readByte_empty he).symm.trans h
      exact .noData he
    · cases (raises_readByte_take he).symm.trans h
  | captureBit x =>
    by_cases hc : s.capCnt.val + 1 < 11
    · cases (if_pos hc).symm.trans h
    · have h10 : s.capCnt.val = 10 := by omega
      exact cause_of_completionError (.inr (.inr ⟨x, rfl, rfl, h10⟩)) (.inr (.inr ⟨x, rfl⟩)) ((if_neg hc).symm.trans h)
  | onCaptureComplete raw => exact cause_of_completionError (.inr (.inl rfl)) (.inr (.inl ⟨raw, rfl⟩)) h
  | onCaptureError => cases h; exact .capture
  | sendByte b =>
    rcases hp : s.txPhase with _ | p
    · simp [raises, hp] at h
    · exact cause_of_txError hp (by simpa only [raises, hp] using h)
  | waitClk l => exact cause_of_clkWait (.inl rfl) h
  | waitIdle => exact cause_of_idleWait (.inl rfl) h
  | getAck => exact cause_of_ackError h
  | encode _ | bytesAvailable _ | resetBuffer | armReceive | teardownCapture | restartCapture => cases h

end Causes

/-- Settles O58: the kinds by the table of their causes. -/
theorem errorKindsHaveTheirCause : Obligations.ErrorKindsHaveTheirCause := by
  intro i s k h
  have cause := cause_of_raises h
  refine ⟨?_, ?_, ?_, ?_, ?_, ?_, ?_, ?_, ?_⟩ <;> rintro rfl
  · cases cause with | framing frame bad => exact ⟨_, bad, frame⟩
  · cases cause with | parity frame start stop bad => exact ⟨_, start, stop, bad, frame⟩
  · cases cause; rfl
  · cases cause with | overflow push full => exact ⟨full, push⟩
  · cases cause with
    | clkTimeout wait loop level time =>
      refine ⟨loop, time, ?_⟩
      rcases wait with rfl | ⟨b, p, rfl, phase, row⟩
      · exact .inl ⟨_, rfl, level⟩
      · exact .inr ⟨b, p, _, rfl, phase, row, level⟩
  · cases cause with | idleTimeout wait loop level time => exact ⟨loop, time, level, wait⟩
  · cases cause with
    | ackLate phase noByte time => exact ⟨rfl, .inl ⟨phase, noByte, time⟩⟩
    | ackNoByte phase empty => exact ⟨rfl, .inr ⟨phase, empty⟩⟩
  · cases cause with | ackWrong v phase wrong => exact ⟨rfl, v, phase, wrong⟩
  · cases cause with | noData empty => exact ⟨rfl, empty⟩

/-! ### The command words -/

/-- A command word decodes to one of the five commands, which run in the foreground (30_encoding.md R100). -/
theorem foreground_command_of_decodeCmd {w : CmdWord} {i : Instr} (h : decodeCmd w = .ok i) :
    i.isCommand = true ∧ i.mayRunIn .foreground = true := by
  rcases decodeCmd_cases h with ⟨rfl, -⟩ | ⟨n, rfl, -⟩ | ⟨rfl, -⟩ | ⟨b, rfl, -⟩ | ⟨rfl, -⟩ <;> exact ⟨rfl, rfl⟩

/-- Settles O59: `push`, the handlers and `capture_bit` are no commands. -/
theorem commandsRunInTheForeground : Obligations.CommandsRunInTheForeground := by
  intro w i h
  obtain ⟨hc, hr⟩ := foreground_command_of_decodeCmd h
  have other {j : Instr} (hj : j.isCommand = false) : i ≠ j := by
    rintro rfl
    exact absurd (hj.symm.trans hc) Bool.false_ne_true
  exact ⟨hr, fun _ => other rfl, fun _ => other rfl, other rfl, fun _ => other rfl⟩

end Sys2Proof.Machine

/-! PROOFS, part 18: the decoder on the word of two fields, and the step that fetches a word. -/

namespace Sys2Proof.Machine

/-! ### The decoder by `op` (30_encoding.md R99, R100, R102) -/

theorem decodeCmd_armReceive (arg : Byte) : decodeCmd (cmdWord 1#4 arg) = noOperand 1#4 arg .armReceive := by
  simp [decodeCmd]

theorem decodeCmd_bytesAvailable (n : Byte) : decodeCmd (cmdWord 2#4 n) = .ok (.bytesAvailable n) := by
  simp [decodeCmd]

theorem decodeCmd_readByte (arg : Byte) : decodeCmd (cmdWord 3#4 arg) = noOperand 3#4 arg .readByte := by
  simp [decodeCmd]

theorem decodeCmd_sendByte (b : Byte) : decodeCmd (cmdWord 4#4 b) = .ok (.sendByte b) := by
  simp [decodeCmd]

theorem decodeCmd_getAck (arg : Byte) : decodeCmd (cmdWord 5#4 arg) = noOperand 5#4 arg .getAck := by
  simp [decodeCmd]

theorem decodeCmd_unassigned {op : BitVec 4} (h : op ∉ [1#4, 2#4, 3#4, 4#4, 5#4]) (arg : Byte) :
    decodeCmd (cmdWord op arg) = .error (.unassignedOp op) := by
  simp only [List.mem_cons, List.not_mem_nil, or_false, not_or] at h
  simp [decodeCmd, h]

/-- Settles O1: each word is the word of its two fields, which the decoder's equation for that `op` answers. -/
theorem vectorWordsDecode : Obligations.VectorWordsDecode :=
  ⟨decodeCmd_armReceive 0#8, decodeCmd_bytesAvailable 0#8, decodeCmd_bytesAvailable 255#8, decodeCmd_readByte 0#8,
    decodeCmd_sendByte 0xF4#8, decodeCmd_getAck 0#8, decodeCmd_unassigned (op := 0#4) (by decide) 0#8,
    decodeCmd_unassigned (op := 7#4) (by decide) 0xAB#8, decodeCmd_armReceive 1#8, decodeCmd_readByte 255#8,
    decodeCmd_getAck 1#8⟩

/-! ### The fetch -/

/-- Settles O4: the scheduled agent is the foreground, whose step with no call in progress takes the next word. -/
theorem stepRunsDecodedInstruction : Obligations.StepRunsDecodedInstruction := by
  intro s w ws rest i hc hs hp ha hq hd
  rw [step_scheduled hc hs]
  exact foregroundStep_fetch (s := { s with schedule := rest }) hp ha hq hd

end Sys2Proof.Machine
